-- ==== Sys2Proof/Word.lean ====
section
/-! DEFINITION. The widths of SLC-CORE: bytes, 16-bit and 32-bit words, operand fields, and the fixed arrays made of them
(rules R7, R20, R70, R71). -/
namespace Sys2Proof

/-- A byte, 0..255 (rule R9). -/
abbrev Byte := BitVec 8
/-- A 16-bit value: `q` (unsigned, rule R24) or an element of `W` (two's complement, rule R37). -/
abbrev Half := BitVec 16
/-- A command word, a response's data or `EW` (rules R70, R12, R25). -/
abbrev Word := BitVec 32
/-- A 4-bit register field: every value names one of `x[0..15]` (rules R21, R73). -/
abbrev RegNum := BitVec 4
/-- A 4-bit slot field: 0..7 name a table, 8..15 are out of range (rule R73). -/
abbrev SlotNum := BitVec 4

/-- The 16 bytes of `BLK`, `KEY` or one round key; index `4 * column + row` (rules R26, R27, R57). -/
abbrev Block := Vector Byte 16
/-- The 11 round keys (rule R28). -/
abbrev RoundKeys := Vector Block 11
/-- The eight row bytes of the affine matrix (rule R29). -/
abbrev Matrix := Vector Byte 8
/-- A flat 256-entry table: entry `v` is the image of byte `v` (rules R14, R30). -/
abbrev Table := Vector Byte 256
/-- The Walsh work array `W[0..255]` (rule R37). -/
abbrev WalshArray := Vector Half 256

end Sys2Proof
end

