-- ==== Sys2Proof/Syntax.lean ====
section
/-! DEFINITION. The commands of SLC-CORE as syntax: one constructor per row of spec/opcode_table.json (rule R75),
with the operands in the order of the table's `fields` column, and the mnemonics as a type of their own. Operands are kept
as the encoding can express them (rule R73); which values the unit accepts is WellFormed (rule R74). -/
namespace Sys2Proof

/-- One command of the unit (rules R75, R101 to R247). -/
inductive Instr where
  /-- NOP, R101: no operation. -/
  | nop
  /-- LDI, R102: `x[rd] <- imm8`. -/
  | ldi (rd : RegNum) (imm8 : Byte)
  /-- MOV, R103: `x[rd] <- x[ra]`. -/
  | mov (rd : RegNum) (ra : RegNum)
  /-- RDX, R104: respond with `x[ra]`. -/
  | rdx (ra : RegNum)
  /-- RDQ, R105: respond with `q`. -/
  | rdq
  /-- RDSR, R106: respond with `SR`. -/
  | rdsr
  /-- RDEC, R107: respond with `EC`. -/
  | rdec
  /-- RDEW, R108: respond with `EW`. -/
  | rdew
  /-- CLRF, R109: clear the fault record. -/
  | clrf
  /-- BWI, R110: `BLK[idx] <- imm8`. -/
  | bwi (idx : Byte) (imm8 : Byte)
  /-- BRD, R111: respond with `BLK[idx]`. -/
  | brd (idx : Byte)
  /-- BST, R112: `BLK[idx] <- x[ra]`. -/
  | bst (ra : RegNum) (idx : Byte)
  /-- BLD, R113: `x[rd] <- BLK[idx]`. -/
  | bld (rd : RegNum) (idx : Byte)
  /-- KWI, R114: `KEY[idx] <- imm8`, RKV cleared. -/
  | kwi (idx : Byte) (imm8 : Byte)
  /-- KRD, R115: respond with `KEY[idx]`. -/
  | krd (idx : Byte)
  /-- RKRD, R116: respond with `RK[rnd][idx]`. -/
  | rkrd (rnd : BitVec 4) (idx : Byte)
  /-- MWI, R117: `MAT[idx] <- imm8`. -/
  | mwi (idx : Byte) (imm8 : Byte)
  /-- MRD, R118: respond with `MAT[idx]`. -/
  | mrd (idx : Byte)
  /-- CWI, R119: `CST <- imm8`. -/
  | cwi (imm8 : Byte)
  /-- CRD, R120: respond with `CST`. -/
  | crd
  /-- TWI, R121: `TBL[td][idx] <- imm8`. -/
  | twi (td : SlotNum) (idx : Byte) (imm8 : Byte)
  /-- TRD, R122: respond with `TBL[ts][idx]`. -/
  | trd (ts : SlotNum) (idx : Byte)
  /-- TLD, R123: `x[rd] <- TBL[ts][x[ra]]`. -/
  | tld (rd : RegNum) (ts : SlotNum) (ra : RegNum)
  /-- TST, R124: `TBL[td][x[ra]] <- x[rb]`. -/
  | tst (td : SlotNum) (ra : RegNum) (rb : RegNum)
  /-- TCPY, R125: copy table `ts` to `td`. -/
  | tcpy (td : SlotNum) (ts : SlotNum)
  /-- WRD, R126: respond with `W[idx]`, sign-extended. -/
  | wrd (idx : Byte)
  /-- GFMUL, R142: field product. -/
  | gfmul (rd : RegNum) (ra : RegNum) (rb : RegNum)
  /-- GFINV, R144: field inverse. -/
  | gfinv (rd : RegNum) (ra : RegNum)
  /-- XOR, R145: field sum. -/
  | xor (rd : RegNum) (ra : RegNum) (rb : RegNum)
  /-- SBGEN, R162: generate a table from `MAT` and `CST`. -/
  | sbgen (td : SlotNum)
  /-- SBCHK, R164: bijection check into BIJ. -/
  | sbchk (ts : SlotNum)
  /-- SBINV, R166: checked inversion. -/
  | sbinv (td : SlotNum) (ts : SlotNum)
  /-- SBINVL, R167: legacy inversion. -/
  | sbinvl (td : SlotNum) (ts : SlotNum)
  /-- MPRE, R168: load a preset matrix and constant. -/
  | mpre (p : Byte)
  /-- SUBB, R181: SubBytes. -/
  | subb (ts : SlotNum)
  /-- SHROW, R182: ShiftRows. -/
  | shrow
  /-- ISHROW, R183: InvShiftRows. -/
  | ishrow
  /-- MIXC, R184: MixColumns. -/
  | mixc
  /-- IMIXC, R185: InvMixColumns. -/
  | imixc
  /-- ADDRK, R186: AddRoundKey. -/
  | addrk (rnd : Byte)
  /-- KEYEXP, R201: expand `KEY` into `RK`, RKV set. -/
  | keyexp
  /-- ENCB, R203: encrypt `BLK`. -/
  | encb (ts : SlotNum)
  /-- DECB, R205: decrypt `BLK`. -/
  | decb (ts : SlotNum)
  /-- WLOAD, R222: load a component function into `W`. -/
  | wload (ts : SlotNum) (mask : Byte)
  /-- FWHT, R225: Walsh-Hadamard transform of `W`. -/
  | fwht
  /-- WMAX, R226: largest magnitude in `W`. -/
  | wmax
  /-- NL, R228: non-linearity. -/
  | nl (ts : SlotNum)
  /-- SAC, R230: strict avalanche numerator. -/
  | sac (ts : SlotNum)
  /-- LAP, R232: linear approximation numerator. -/
  | lap (ts : SlotNum)
  /-- DAP, R234: differential approximation numerator. -/
  | dap (ts : SlotNum)
  /-- DU, R236: differential uniformity. -/
  | du (ts : SlotNum)
  /-- AD, R243: algebraic degree. -/
  | ad (ts : SlotNum)
  /-- BIC, R245: bit independence. -/
  | bic (ts : SlotNum)
  /-- FIXP, R247: fixed points. -/
  | fixp (ts : SlotNum)
  deriving DecidableEq, Repr

/-- The 54 mnemonics of rule R75. -/
inductive Mnemonic where
  | nop | ldi | mov | rdx | rdq | rdsr | rdec | rdew | clrf
  | bwi | brd | bst | bld | kwi | krd | rkrd | mwi | mrd
  | cwi | crd | twi | trd | tld | tst | tcpy | wrd | gfmul
  | gfinv | xor | sbgen | sbchk | sbinv | sbinvl | mpre | subb | shrow
  | ishrow | mixc | imixc | addrk | keyexp | encb | decb | wload | fwht
  | wmax | nl | sac | lap | dap | du | ad | bic | fixp
  deriving DecidableEq, Repr

/-- The mnemonic of a command (rule R79: the assembly form starts with it). -/
def Instr.mnemonic : Instr → Mnemonic
  | .nop => .nop
  | .ldi _ _ => .ldi
  | .mov _ _ => .mov
  | .rdx _ => .rdx
  | .rdq => .rdq
  | .rdsr => .rdsr
  | .rdec => .rdec
  | .rdew => .rdew
  | .clrf => .clrf
  | .bwi _ _ => .bwi
  | .brd _ => .brd
  | .bst _ _ => .bst
  | .bld _ _ => .bld
  | .kwi _ _ => .kwi
  | .krd _ => .krd
  | .rkrd _ _ => .rkrd
  | .mwi _ _ => .mwi
  | .mrd _ => .mrd
  | .cwi _ => .cwi
  | .crd => .crd
  | .twi _ _ _ => .twi
  | .trd _ _ => .trd
  | .tld _ _ _ => .tld
  | .tst _ _ _ => .tst
  | .tcpy _ _ => .tcpy
  | .wrd _ => .wrd
  | .gfmul _ _ _ => .gfmul
  | .gfinv _ _ => .gfinv
  | .xor _ _ _ => .xor
  | .sbgen _ => .sbgen
  | .sbchk _ => .sbchk
  | .sbinv _ _ => .sbinv
  | .sbinvl _ _ => .sbinvl
  | .mpre _ => .mpre
  | .subb _ => .subb
  | .shrow => .shrow
  | .ishrow => .ishrow
  | .mixc => .mixc
  | .imixc => .imixc
  | .addrk _ => .addrk
  | .keyexp => .keyexp
  | .encb _ => .encb
  | .decb _ => .decb
  | .wload _ _ => .wload
  | .fwht => .fwht
  | .wmax => .wmax
  | .nl _ => .nl
  | .sac _ => .sac
  | .lap _ => .lap
  | .dap _ => .dap
  | .du _ => .du
  | .ad _ => .ad
  | .bic _ => .bic
  | .fixp _ => .fixp

/-- All mnemonics, in the order of rule R75. -/
def Mnemonic.all : List Mnemonic :=
  [.nop, .ldi, .mov, .rdx, .rdq, .rdsr, .rdec, .rdew, .clrf,
   .bwi, .brd, .bst, .bld, .kwi, .krd, .rkrd, .mwi, .mrd,
   .cwi, .crd, .twi, .trd, .tld, .tst, .tcpy, .wrd, .gfmul,
   .gfinv, .xor, .sbgen, .sbchk, .sbinv, .sbinvl, .mpre, .subb, .shrow,
   .ishrow, .mixc, .imixc, .addrk, .keyexp, .encb, .decb, .wload, .fwht,
   .wmax, .nl, .sac, .lap, .dap, .du, .ad, .bic, .fixp]

end Sys2Proof
end

