-- ==== Sys2Proof/Decode.lean ====
section
/-! DEFINITION. The encoding of 30_encoding.md: the fields of a command word (rule R71), the twelve formats and their masks
(rule R72), the opcodes (rule R75), the decoder (steps 1 to 3 of rule R78), total on every word and rejecting by name, and
the encoder, written from the same tables. -/
namespace Sys2Proof

/-! ### Fields of a command word (rule R71) -/

def fieldOp (c : Word) : Byte := c.extractLsb' 24 8
def fieldA (c : Word) : BitVec 4 := c.extractLsb' 20 4
def fieldB (c : Word) : BitVec 4 := c.extractLsb' 16 4
def fieldC (c : Word) : BitVec 4 := c.extractLsb' 12 4
def fieldIdx (c : Word) : Byte := c.extractLsb' 8 8
def fieldImm (c : Word) : Byte := c.extractLsb' 0 8

/-- The twelve formats, named by the fields they use (rule R72). -/
inductive Format where
  | n | a | b | i | ab | ai | bi | abc | x | xi | ax | axi
  deriving DecidableEq, Repr

/-- The bits a decoder compares (rule R72, column mask): the opcode and the must-be-zero bits. -/
def Format.mask : Format → Word
  | .n   => 0xFFFFFFFF
  | .a   => 0xFF0FFFFF
  | .b   => 0xFFF0FFFF
  | .i   => 0xFFFFFF00
  | .ab  => 0xFF00FFFF
  | .ai  => 0xFF0FFF00
  | .bi  => 0xFFF0FF00
  | .abc => 0xFF000FFF
  | .x   => 0xFFFF00FF
  | .xi  => 0xFFFF0000
  | .ax  => 0xFF0F00FF
  | .axi => 0xFF0F0000

/-- The opcode of each mnemonic (rule R75, column OP). -/
def Mnemonic.opcode : Mnemonic → Byte
  | .nop => 0x00
  | .ldi => 0x01
  | .mov => 0x02
  | .rdx => 0x03
  | .rdq => 0x04
  | .rdsr => 0x05
  | .rdec => 0x06
  | .rdew => 0x07
  | .clrf => 0x08
  | .bwi => 0x10
  | .brd => 0x11
  | .bst => 0x12
  | .bld => 0x13
  | .kwi => 0x14
  | .krd => 0x15
  | .rkrd => 0x16
  | .mwi => 0x18
  | .mrd => 0x19
  | .cwi => 0x1A
  | .crd => 0x1B
  | .twi => 0x20
  | .trd => 0x21
  | .tld => 0x22
  | .tst => 0x23
  | .tcpy => 0x24
  | .wrd => 0x28
  | .gfmul => 0x30
  | .gfinv => 0x31
  | .xor => 0x32
  | .sbgen => 0x40
  | .sbchk => 0x41
  | .sbinv => 0x42
  | .sbinvl => 0x43
  | .mpre => 0x44
  | .subb => 0x50
  | .shrow => 0x51
  | .ishrow => 0x52
  | .mixc => 0x53
  | .imixc => 0x54
  | .addrk => 0x55
  | .keyexp => 0x58
  | .encb => 0x59
  | .decb => 0x5A
  | .wload => 0x60
  | .fwht => 0x61
  | .wmax => 0x62
  | .nl => 0x68
  | .sac => 0x69
  | .lap => 0x6A
  | .dap => 0x6B
  | .du => 0x6C
  | .ad => 0x6D
  | .bic => 0x6E
  | .fixp => 0x6F

/-- The format of each mnemonic (rule R75, column format). -/
def Mnemonic.format : Mnemonic → Format
  | .nop => .n
  | .ldi => .ai
  | .mov => .ab
  | .rdx => .a
  | .rdq => .n
  | .rdsr => .n
  | .rdec => .n
  | .rdew => .n
  | .clrf => .n
  | .bwi => .xi
  | .brd => .x
  | .bst => .ax
  | .bld => .ax
  | .kwi => .xi
  | .krd => .x
  | .rkrd => .ax
  | .mwi => .xi
  | .mrd => .x
  | .cwi => .i
  | .crd => .n
  | .twi => .axi
  | .trd => .ax
  | .tld => .abc
  | .tst => .abc
  | .tcpy => .ab
  | .wrd => .x
  | .gfmul => .abc
  | .gfinv => .ab
  | .xor => .abc
  | .sbgen => .a
  | .sbchk => .b
  | .sbinv => .ab
  | .sbinvl => .ab
  | .mpre => .i
  | .subb => .b
  | .shrow => .n
  | .ishrow => .n
  | .mixc => .n
  | .imixc => .n
  | .addrk => .i
  | .keyexp => .n
  | .encb => .b
  | .decb => .b
  | .wload => .bi
  | .fwht => .n
  | .wmax => .n
  | .nl => .b
  | .sac => .b
  | .lap => .b
  | .dap => .b
  | .du => .b
  | .ad => .b
  | .bic => .b
  | .fixp => .b

/-- `match(M) = opcode(M) << 24` (rule R72). -/
def Mnemonic.matchWord (m : Mnemonic) : Word := m.opcode ++ 0#24

/-- The row of rule R75 with a given opcode, if there is one (rule R78 step 1). -/
def Mnemonic.ofOpcode? (op : Byte) : Option Mnemonic := Mnemonic.all.find? fun m => m.opcode == op

/-- The operands taken from their fields (rule R78 step 3, rule R73, column `fields` of rule R75). -/
def Mnemonic.operandsFrom (c : Word) : Mnemonic → Instr
  | .nop => .nop
  | .ldi => .ldi (fieldA c) (fieldImm c)
  | .mov => .mov (fieldA c) (fieldB c)
  | .rdx => .rdx (fieldA c)
  | .rdq => .rdq
  | .rdsr => .rdsr
  | .rdec => .rdec
  | .rdew => .rdew
  | .clrf => .clrf
  | .bwi => .bwi (fieldIdx c) (fieldImm c)
  | .brd => .brd (fieldIdx c)
  | .bst => .bst (fieldA c) (fieldIdx c)
  | .bld => .bld (fieldA c) (fieldIdx c)
  | .kwi => .kwi (fieldIdx c) (fieldImm c)
  | .krd => .krd (fieldIdx c)
  | .rkrd => .rkrd (fieldA c) (fieldIdx c)
  | .mwi => .mwi (fieldIdx c) (fieldImm c)
  | .mrd => .mrd (fieldIdx c)
  | .cwi => .cwi (fieldImm c)
  | .crd => .crd
  | .twi => .twi (fieldA c) (fieldIdx c) (fieldImm c)
  | .trd => .trd (fieldA c) (fieldIdx c)
  | .tld => .tld (fieldA c) (fieldB c) (fieldC c)
  | .tst => .tst (fieldA c) (fieldB c) (fieldC c)
  | .tcpy => .tcpy (fieldA c) (fieldB c)
  | .wrd => .wrd (fieldIdx c)
  | .gfmul => .gfmul (fieldA c) (fieldB c) (fieldC c)
  | .gfinv => .gfinv (fieldA c) (fieldB c)
  | .xor => .xor (fieldA c) (fieldB c) (fieldC c)
  | .sbgen => .sbgen (fieldA c)
  | .sbchk => .sbchk (fieldB c)
  | .sbinv => .sbinv (fieldA c) (fieldB c)
  | .sbinvl => .sbinvl (fieldA c) (fieldB c)
  | .mpre => .mpre (fieldImm c)
  | .subb => .subb (fieldB c)
  | .shrow => .shrow
  | .ishrow => .ishrow
  | .mixc => .mixc
  | .imixc => .imixc
  | .addrk => .addrk (fieldImm c)
  | .keyexp => .keyexp
  | .encb => .encb (fieldB c)
  | .decb => .decb (fieldB c)
  | .wload => .wload (fieldB c) (fieldImm c)
  | .fwht => .fwht
  | .wmax => .wmax
  | .nl => .nl (fieldB c)
  | .sac => .sac (fieldB c)
  | .lap => .lap (fieldB c)
  | .dap => .dap (fieldB c)
  | .du => .du (fieldB c)
  | .ad => .ad (fieldB c)
  | .bic => .bic (fieldB c)
  | .fixp => .fixp (fieldB c)

/-- Why a word is no command; both are IllegalCommand (rules R76, R302). -/
inductive DecodeError where
  /-- `c[31:24]` is no opcode of rule R75 (rule R78 step 1). -/
  | unassignedOpcode
  /-- a bit outside the fields of the command's format is 1 (rule R78 step 2). -/
  | mustBeZeroBitSet
  deriving DecidableEq, Repr

/-- Steps 1 to 3 of the decode procedure of rule R78. Steps 4 to 7 look at the operands and the state: they are part of the
meanings. -/
def decode (c : Word) : Except DecodeError Instr :=
  match Mnemonic.ofOpcode? (fieldOp c) with
  | none => .error .unassignedOpcode
  | some m => if c &&& m.format.mask = m.matchWord then .ok (m.operandsFrom c) else .error .mustBeZeroBitSet

/-! ### Encoder -/

/-- The layout of every command word (rule R71), most significant field first: OP, A, B, IDX, IMM. -/
def layout (op : Byte) (a b : BitVec 4) (idx imm : Byte) : Word := op ++ a ++ b ++ idx ++ imm

/-! One word per format (rule R72): the fields it uses, zero in every other bit. `C` is the upper half of `IDX`. -/

def wordN (op : Byte) : Word := layout op 0 0 0 0
def wordA (op : Byte) (a : BitVec 4) : Word := layout op a 0 0 0
def wordB (op : Byte) (b : BitVec 4) : Word := layout op 0 b 0 0
def wordI (op imm : Byte) : Word := layout op 0 0 0 imm
def wordAB (op : Byte) (a b : BitVec 4) : Word := layout op a b 0 0
def wordAI (op : Byte) (a : BitVec 4) (imm : Byte) : Word := layout op a 0 0 imm
def wordBI (op : Byte) (b : BitVec 4) (imm : Byte) : Word := layout op 0 b 0 imm
def wordABC (op : Byte) (a b c : BitVec 4) : Word := layout op a b (c ++ 0#4) 0
def wordX (op idx : Byte) : Word := layout op 0 0 idx 0
def wordXI (op idx imm : Byte) : Word := layout op 0 0 idx imm
def wordAX (op : Byte) (a : BitVec 4) (idx : Byte) : Word := layout op a 0 idx 0
def wordAXI (op : Byte) (a : BitVec 4) (idx imm : Byte) : Word := layout op a 0 idx imm

/-- The command word of a command (rules R71, R72, R75). It is total: a word exists for every operand the fields can hold,
in range or not. -/
def encode : Instr → Word
  | .nop => wordN 0x00
  | .ldi rd imm8 => wordAI 0x01 rd imm8
  | .mov rd ra => wordAB 0x02 rd ra
  | .rdx ra => wordA 0x03 ra
  | .rdq => wordN 0x04
  | .rdsr => wordN 0x05
  | .rdec => wordN 0x06
  | .rdew => wordN 0x07
  | .clrf => wordN 0x08
  | .bwi idx imm8 => wordXI 0x10 idx imm8
  | .brd idx => wordX 0x11 idx
  | .bst ra idx => wordAX 0x12 ra idx
  | .bld rd idx => wordAX 0x13 rd idx
  | .kwi idx imm8 => wordXI 0x14 idx imm8
  | .krd idx => wordX 0x15 idx
  | .rkrd rnd idx => wordAX 0x16 rnd idx
  | .mwi idx imm8 => wordXI 0x18 idx imm8
  | .mrd idx => wordX 0x19 idx
  | .cwi imm8 => wordI 0x1A imm8
  | .crd => wordN 0x1B
  | .twi td idx imm8 => wordAXI 0x20 td idx imm8
  | .trd ts idx => wordAX 0x21 ts idx
  | .tld rd ts ra => wordABC 0x22 rd ts ra
  | .tst td ra rb => wordABC 0x23 td ra rb
  | .tcpy td ts => wordAB 0x24 td ts
  | .wrd idx => wordX 0x28 idx
  | .gfmul rd ra rb => wordABC 0x30 rd ra rb
  | .gfinv rd ra => wordAB 0x31 rd ra
  | .xor rd ra rb => wordABC 0x32 rd ra rb
  | .sbgen td => wordA 0x40 td
  | .sbchk ts => wordB 0x41 ts
  | .sbinv td ts => wordAB 0x42 td ts
  | .sbinvl td ts => wordAB 0x43 td ts
  | .mpre p => wordI 0x44 p
  | .subb ts => wordB 0x50 ts
  | .shrow => wordN 0x51
  | .ishrow => wordN 0x52
  | .mixc => wordN 0x53
  | .imixc => wordN 0x54
  | .addrk rnd => wordI 0x55 rnd
  | .keyexp => wordN 0x58
  | .encb ts => wordB 0x59 ts
  | .decb ts => wordB 0x5A ts
  | .wload ts mask => wordBI 0x60 ts mask
  | .fwht => wordN 0x61
  | .wmax => wordN 0x62
  | .nl ts => wordB 0x68 ts
  | .sac ts => wordB 0x69 ts
  | .lap ts => wordB 0x6A ts
  | .dap ts => wordB 0x6B ts
  | .du ts => wordB 0x6C ts
  | .ad ts => wordB 0x6D ts
  | .bic ts => wordB 0x6E ts
  | .fixp ts => wordB 0x6F ts

/-- The instruction the decoder reads from the table's word `w` of `nbits` bits (always 32 here, rule R70); every bit above
them is 0. -/
def decodeTableWord (nbits w : Nat) : Option Instr :=
  match decode (BitVec.ofNat 32 (w % 2 ^ nbits)) with
  | .ok i => some i
  | .error _ => none

end Sys2Proof
end

