-- ==== Sys2Proof/Machine/Bits.lean ====
section
/-! DEFINITION. The notation of 00_scope.md as functions: Hamming weight and parity (rule R10), arrays given element by
element (rule R13) and arrays indexed by a byte (rule R14). -/
namespace Sys2Proof.Machine

/-- The array of `n` elements whose element `i` is `f i`: "compute the new bytes from the old bytes, then replace all"
(rule R13). -/
def tabulate {α : Type} (n : Nat) (f : Fin n → α) : Vector α n :=
  ⟨(List.ofFn f).toArray, by simp⟩

/-- The bytes 0..255, ascending. -/
def allBytes : List Byte := (List.range 256).map (BitVec.ofNat 8)

/-- The 256-element array whose element `v` is `f v`. -/
def tabulateBytes {α : Type} (f : Byte → α) : Vector α 256 :=
  ⟨(allBytes.map f).toArray, by simp [allBytes]⟩

/-- Element `v` of a 256-element array; an index taken from a byte is always in range (rule R55). -/
def entry {α : Type} (t : Vector α 256) (v : Byte) : α := t[v.toNat]'v.isLt

/-- A 256-element array with element `v` replaced. -/
def setEntry {α : Type} (t : Vector α 256) (v : Byte) (a : α) : Vector α 256 := t.set v.toNat a v.isLt

/-- The bytes 1..255, ascending. -/
def nonzeroBytes : List Byte := allBytes.drop 1

/-- `hw(v)`, the number of one bits of a byte (rule R10). -/
def hw (v : Byte) : Nat := (List.range 8).countP fun k => v.getLsbD k

/-- `parity(v)`: true when `v` has an odd number of one bits (rule R10). -/
def parity (v : Byte) : Bool := hw v % 2 == 1

/-- The largest of a list of naturals, 0 for the empty list. -/
def maxOf (l : List Nat) : Nat := l.foldl max 0

/-- The smallest of a list of naturals (0 for the empty list, which no rule uses). -/
def minOf : List Nat → Nat
  | [] => 0
  | a :: l => l.foldl min a

end Sys2Proof.Machine
end

