-- ==== Sys2Proof/Machine/GfMath.lean ====
section
/-! DEFINITION. The functions of the GF(2^8) unit (41_gf256.md): the multiplier and the multiplicative inverse. -/
namespace Sys2Proof.Machine

/-- `n` iterations of the shift-and-reduce loop of rule R141 from product `p` and operands `a`, `b`:
bit 0 of `b` is its low bit, bit 7 of `a` its high bit before the shift. -/
def gfMulLoop : Nat → Byte → Byte → Byte → Byte
  | 0, p, _, _ => p
  | n + 1, p, a, b =>
    gfMulLoop n
      (bif b.getLsbD 0 then p ^^^ a else p)
      (bif a.getLsbD 7 then (a <<< 1) ^^^ 0x1B else a <<< 1)
      (b >>> 1)

/-- `gf_mul(a, b)` (rule R141): all eight iterations, whatever the value of `b`. -/
def gfMul (a b : Byte) : Byte := gfMulLoop 8 0 a b

/-- `gf_inv(b)` (rule R143): 0 for 0, else the first `i` in 1..255 with `gf_mul(b, i) = 1`. The search always finds one
(rule R143; the 0 of `getD` is never used, log entry 8). -/
def gfInv (b : Byte) : Byte :=
  if b = 0 then 0 else (nonzeroBytes.find? fun i => gfMul b i == 1).getD 0

end Sys2Proof.Machine
end

