-- ==== Sys2Proof/Machine/BlockMath.lean ====
section
/-! DEFINITION. The block functions: the stages of 43_round_functions.md and the key expansion, encryption and decryption of
44_block_engine.md, on values (the commands apply them to `BLK`, `KEY`, `RK`). -/
namespace Sys2Proof.Machine

/-- The byte in row `r`, column `c` of a block: index `4 * c + r`, column and row taken modulo 4 (rules R57, R180). -/
def cell (b : Block) (r c : Nat) : Byte := b[4 * (c % 4) + r % 4]'(by omega)

/-- The block whose byte in row `r`, column `c` is `f r c` (rule R180). -/
def ofCells (f : Nat → Nat → Byte) : Block := tabulate 16 fun i => f (i.val % 4) (i.val / 4)

/-- SubBytes (rule R181). -/
def subBytes (b : Block) (t : Table) : Block := tabulate 16 fun i => entry t b[i]

/-- ShiftRows (rule R182): row `r` rotated left by `r`. -/
def shiftRows (b : Block) : Block := ofCells fun r c => cell b r ((c + r) % 4)

/-- InvShiftRows (rule R183): row `r` rotated right by `r`; `(c + 4 - r) % 4` is the rule's `(c - r) % 4`. -/
def invShiftRows (b : Block) : Block := ofCells fun r c => cell b r ((c + 4 - r) % 4)

/-- Output byte `r` of a column under MixColumns (rule R184); the coefficient 1 is left out as `m(1, v) = v`. -/
def mixColumnByte (a0 a1 a2 a3 : Byte) : Nat → Byte
  | 0 => gfMul 2 a0 ^^^ gfMul 3 a1 ^^^ a2 ^^^ a3
  | 1 => a0 ^^^ gfMul 2 a1 ^^^ gfMul 3 a2 ^^^ a3
  | 2 => a0 ^^^ a1 ^^^ gfMul 2 a2 ^^^ gfMul 3 a3
  | _ => gfMul 3 a0 ^^^ a1 ^^^ a2 ^^^ gfMul 2 a3

/-- Output byte `r` of a column under InvMixColumns (rule R185). -/
def invMixColumnByte (a0 a1 a2 a3 : Byte) : Nat → Byte
  | 0 => gfMul 14 a0 ^^^ gfMul 11 a1 ^^^ gfMul 13 a2 ^^^ gfMul 9 a3
  | 1 => gfMul 9 a0 ^^^ gfMul 14 a1 ^^^ gfMul 11 a2 ^^^ gfMul 13 a3
  | 2 => gfMul 13 a0 ^^^ gfMul 9 a1 ^^^ gfMul 14 a2 ^^^ gfMul 11 a3
  | _ => gfMul 11 a0 ^^^ gfMul 13 a1 ^^^ gfMul 9 a2 ^^^ gfMul 14 a3

/-- MixColumns (rule R184). -/
def mixColumns (b : Block) : Block :=
  ofCells fun r c => mixColumnByte (cell b 0 c) (cell b 1 c) (cell b 2 c) (cell b 3 c) r

/-- InvMixColumns (rule R185). -/
def invMixColumns (b : Block) : Block :=
  ofCells fun r c => invMixColumnByte (cell b 0 c) (cell b 1 c) (cell b 2 c) (cell b 3 c) r

/-- AddRoundKey (rule R186): byte-wise XOR. -/
def addRoundKey (b k : Block) : Block := tabulate 16 fun j => b[j] ^^^ k[j]

/-- Round key `i` of a key (rule R200). -/
def roundKey (k : Block) : Nat → Block
  | 0 => k
  | i + 1 => addRoundKey (roundKey k i) (tabulate 16 fun j => BitVec.ofNat 8 (((i + 1) * 17 + j.val) &&& 0xFF))

/-- `key_expansion(K)` (rule R200). -/
def keyExpansion (k : Block) : RoundKeys := tabulate 11 fun i => roundKey k i.val

/-- One full round of encryption, 1..9 (rule R202). -/
def encryptRound (rk : RoundKeys) (t : Table) (s : Block) (n : Fin 11) : Block :=
  addRoundKey (mixColumns (shiftRows (subBytes s t))) rk[n]

/-- `encrypt_block(B, R, T)` (rule R202). -/
def encryptBlock (b : Block) (rk : RoundKeys) (t : Table) : Block :=
  let s := ([1, 2, 3, 4, 5, 6, 7, 8, 9] : List (Fin 11)).foldl (encryptRound rk t) (addRoundKey b rk[0])
  addRoundKey (shiftRows (subBytes s t)) rk[10]

/-- One full round of decryption, 9 down to 1 (rule R204). -/
def decryptRound (rk : RoundKeys) (t : Table) (s : Block) (n : Fin 11) : Block :=
  subBytes (invShiftRows (invMixColumns (addRoundKey s rk[n]))) t

/-- `decrypt_block(B, R, T)` (rule R204); `T` is the inverse table. -/
def decryptBlock (b : Block) (rk : RoundKeys) (t : Table) : Block :=
  let s := subBytes (invShiftRows (addRoundKey b rk[10])) t
  addRoundKey (([9, 8, 7, 6, 5, 4, 3, 2, 1] : List (Fin 11)).foldl (decryptRound rk t) s) rk[0]

end Sys2Proof.Machine
end

