-- ==== Sys2Proof/Machine/Flags.lean ====
section
/-! DEFINITION. The status register `SR` (rule R23): flag BIJ in bit 0, flag RKV in bit 1, bits 7:2 read as 0. No command
computes a carry, zero, sign or overflow flag (rule R23). -/
namespace Sys2Proof.Machine

/-- BIJ: the last SBCHK found a bijection. -/
def bijFlag (sr : Byte) : Bool := sr.getLsbD 0

/-- RKV: `RK` was computed from the present `KEY`. -/
def rkvFlag (sr : Byte) : Bool := sr.getLsbD 1

/-- SBCHK writes BIJ and leaves RKV (rule R164). -/
def setBij (sr : Byte) (b : Bool) : Byte := (sr &&& 0xFE) ||| (if b then 0x01 else 0x00)

/-- KEYEXP sets RKV (rule R201). -/
def setRkv (sr : Byte) : Byte := sr ||| 0x02

/-- Every KWI clears RKV (rule R114). -/
def clearRkv (sr : Byte) : Byte := sr &&& 0xFD

/-- `SR` as RDSR reads it: `BIJ | (RKV << 1)`, bits 31:2 zero (rules R23, R106). -/
def readSr (sr : Byte) : Word := (if bijFlag sr then 1 else 0) ||| (if rkvFlag sr then 2 else 0)

end Sys2Proof.Machine
end

