-- ==== Sys2Proof/Machine/SboxMath.lean ====
section
/-! DEFINITION. The functions of the S-box generator and checker (42_sbox.md). -/
namespace Sys2Proof.Machine

/-- The matrix-vector product over GF(2) of rules R160 and R161: row `r` gives output bit `7 - r`, the parity of the row
and the input. -/
def matVec (m : Matrix) (v : Byte) : Byte :=
  (List.finRange 8).foldl
    (fun o r => o ||| ((if parity (m[r] &&& v) then 1#8 else 0#8) <<< (7 - r.val))) 0

/-- `from_affine(M, C)` (rule R161). -/
def fromAffine (m : Matrix) (c : Byte) : Table := tabulateBytes fun i => matVec m (gfInv i) ^^^ c

/-- `is_bijection(T)` (rule R170): every byte value occurs in `T`. -/
def isBijection (t : Table) : Bool := allBytes.all fun v => t.toList.contains v

/-- `invert(T)` (rule R165): `I` all 0x00, then `I[T[i]] <- i` for `i` ascending; a later `i` overwrites an earlier one. -/
def invert (t : Table) : Table :=
  allBytes.foldl (fun inv i => setEntry inv (entry t i) i) (Vector.replicate 256 0)

end Sys2Proof.Machine
end

