-- ==== Sys2Proof/Machine/WalshMath.lean ====
section
/-! DEFINITION. The functions of the cryptanalysis unit (45_cryptanalysis.md): the Walsh spectrum and its butterfly, the
Möbius transform, and the integer each metric command writes (rule R220). -/
namespace Sys2Proof.Machine

/-! ### Walsh spectrum -/

/-- `f_b(x) = (-1)^parity(T[x] & b)`, the ±1 truth table of a component function (rule R221). -/
def component (t : Table) (b : Byte) : Vector Int 256 :=
  tabulateBytes fun x => if parity (entry t x &&& b) then -1 else 1

/-- `G(a)`, the Walsh spectrum of a sequence at `a` (rule R223), term by term. The commands reach it by the butterfly below;
that the two agree is rule R224. -/
def spectrumAt (g : Vector Int 256) (a : Byte) : Int :=
  (allBytes.map fun x => if parity (a &&& x) then -entry g x else entry g x).sum

/-- One butterfly stage of span `h`, a power of two (rule R224): each pair `(j, j + h)` with bit `h` of `j` clear becomes its
sum and its difference. Every element is in one pair, so the stage is given element by element (log entry 9). -/
def butterflyStage {α : Type} (add sub : α → α → α) (w : Vector α 256) (h : Byte) : Vector α 256 :=
  tabulateBytes fun j =>
    if j &&& h = 0 then add (entry w j) (entry w (j + h)) else sub (entry w (j - h)) (entry w j)

/-- The eight spans of rule R224, ascending. -/
def spans : List Byte := [1, 2, 4, 8, 16, 32, 64, 128]

/-- `fwht(W)` (rule R224) on 16-bit two's complement elements; the 16-bit sum and difference are `wrap16`. -/
def fwht (w : WalshArray) : WalshArray := spans.foldl (butterflyStage (· + ·) (· - ·)) w

/-- The same eight stages on exact integers: the private spectrum of a metric command (rules R38, R227, log entry 10). -/
def walsh (g : Vector Int 256) : Vector Int 256 := spans.foldl (butterflyStage (· + ·) (· - ·)) g

/-- The largest absolute value in `W`, `a = 0` included, as an unsigned integer (rule R226). -/
def walshMax (w : WalshArray) : Nat := maxOf (w.toList.map fun v => v.toInt.natAbs)

/-- The array WLOAD writes: +1 or -1 as a 16-bit value (rule R222). -/
def walshLoad (t : Table) (mask : Byte) : WalshArray :=
  tabulateBytes fun x => if parity (entry t x &&& mask) then 0xFFFF else 0x0001

/-! ### Metrics -/

/-- `nl_mask(T, b)` (rule R227). -/
def nlMask (t : Table) (b : Byte) : Nat :=
  (256 - maxOf ((walsh (component t b)).toList.map Int.natAbs)) / 2

/-- NL (rule R228): the minimum over the 255 non-zero output masks. -/
def nonLinearity (t : Table) : Nat := minOf (nonzeroBytes.map (nlMask t))

/-- SAC's numerator (rule R230): the sum of the Hamming weights over all inputs and all one-bit flips. -/
def sacSum (t : Table) : Nat :=
  (allBytes.map fun x =>
    ((List.range 8).map fun b => hw (entry t x ^^^ entry t (x ^^^ (1#8 <<< b)))).sum).sum

/-- LAP's numerator (rule R232): the largest absolute spectrum value, both masks non-zero. -/
def lapMax (t : Table) : Nat :=
  maxOf (nonzeroBytes.map fun b =>
    let g := walsh (component t b)
    maxOf (nonzeroBytes.map fun a => (entry g a).natAbs))

/-- The 256-bucket histogram of output differences for one input difference (rule R234). -/
def diffHistogram (t : Table) (dx : Byte) : Vector Nat 256 :=
  allBytes.foldl
    (fun h x =>
      let dy := entry t x ^^^ entry t (x ^^^ dx)
      setEntry h dy (entry h dy + 1))
    (Vector.replicate 256 0)

/-- DAP's numerator (rule R234): the largest bucket over all non-zero input differences, bucket 0 included. -/
def dapMax (t : Table) : Nat := maxOf (nonzeroBytes.map fun dx => maxOf (diffHistogram t dx).toList)

/-- DU (rule R236): `round((dapMax / 256) * 256)`, the same integer, the rounding never acting. -/
def diffUniformity (t : Table) : Nat := dapMax t

/-- One pass of the Möbius transform for input bit `i` (rule R242): `t[j | (1 << i)] ^= t[j]` for every `j` with bit `i`
clear. No element is both read and written, so the pass is given element by element (log entry 9). -/
def anfPass (t : Vector Bool 256) (i : Nat) : Vector Bool 256 :=
  tabulateBytes fun j =>
    if j &&& (1#8 <<< i) = 0 then entry t j else entry t j ^^ entry t (j ^^^ (1#8 <<< i))

/-- `anf(t)` (rule R242). -/
def anf (t : Vector Bool 256) : Vector Bool 256 := (List.range 8).foldl anfPass t

/-- The truth table of output bit `k` (rule R243). -/
def outputBit (t : Table) (k : Nat) : Vector Bool 256 := tabulateBytes fun x => (entry t x).getLsbD k

/-- The largest Hamming weight among the terms of a component, 0 when it has none (rule R243, decision D14). -/
def bitDegree (t : Table) (k : Nat) : Nat :=
  let a := anf (outputBit t k)
  maxOf ((allBytes.filter fun j => entry a j).map hw)

/-- AD (rule R243): the maximum over the eight output bits. -/
def algebraicDegree (t : Table) : Nat := maxOf ((List.range 8).map (bitDegree t))

/-- The 28 masks `(1 << i) | (1 << j)`, `i < j` (rule R245). -/
def pairMasks : List Byte :=
  (List.range 8).flatMap fun i =>
    ((List.range 8).filter fun j => i < j).map fun j => (1#8 <<< i) ||| (1#8 <<< j)

/-- BIC (rule R245). -/
def bitIndependence (t : Table) : Nat := minOf (pairMasks.map (nlMask t))

/-- FIXP (rule R247): `#(x : T[x] = x)`. -/
def fixedPoints (t : Table) : Nat := allBytes.countP fun x => entry t x == x

end Sys2Proof.Machine
end

