-- ==== Sys2Proof/Machine/State.lean ====
section
/-! DEFINITION. The whole architectural state of one unit (rule R20) with its reset value (rule R40), the response
(rule R12), the fault codes (rule R301) and the ways a step of the model could stop. The read-only tables and presets are
constants (rule R39, Config). -/
namespace Sys2Proof.Machine

/-- The response of one command: `(status, data)` (rule R12). -/
structure Response where
  status : Byte
  data : Word
  deriving DecidableEq, Repr

/-- The faults of the unit (rule R301). Raising one is a next state of the model: the unit records it, responds with it and
goes on (rules R305, R309). -/
inductive FaultCode where
  | illegalCommand
  | operandRange
  | readOnlyTable
  | nonBijectiveSBox
  | keyNotExpanded
  deriving DecidableEq, Repr

/-- The code of a fault: the response's status and the value of `EC` (rule R301). -/
def FaultCode.code : FaultCode → Byte
  | .illegalCommand   => 0x01
  | .operandRange     => 0x02
  | .readOnlyTable    => 0x03
  | .nonBijectiveSBox => 0x04
  | .keyNotExpanded   => 0x05

/-- The architectural state (rule R20), and the two ends of the command port (rules R17, R338). -/
structure State where
  /-- `x[0..15]`, the general registers (rule R21). -/
  x : Vector Byte 16
  /-- `q`, the result register, unsigned (rule R24). -/
  q : Half
  /-- `SR`, the status register: bit 0 BIJ, bit 1 RKV, bits 7:2 zero (rule R23). -/
  sr : Byte
  /-- `EC`, the code of the most recent fault (rule R25). -/
  ec : Byte
  /-- `EW`, the command word of the most recent fault (rule R25). -/
  ew : Word
  /-- `BLK[0..15]`, the block register (rule R26). -/
  blk : Block
  /-- `KEY[0..15]` (rule R27). -/
  key : Block
  /-- `RK[0..10][0..15]`, the expanded key (rule R28). -/
  rk : RoundKeys
  /-- `MAT[0..7]`, the affine matrix (rule R29). -/
  mat : Matrix
  /-- `CST`, the constant (rule R29). -/
  cst : Byte
  /-- `TBL[0..3][0..255]`, the writable table slots (rule R30). -/
  tbl : Vector Table 4
  /-- `W[0..255]`, the Walsh work array (rule R37). -/
  w : WalshArray
  /-- The words the host has still to issue, in order: the model's form of the command port (rules R17, R22, R338; log
  entry 1). -/
  cmds : List Word
  /-- The responses given so far, oldest first: the model's form of the response port (rules R12, R338; log entry 2). -/
  responses : List Response
  deriving DecidableEq, Repr

/-- The reset state: every register and every writable array element is zero (rules R40, R331). No command is waiting and no
response has been given (log entries 1 and 2). -/
def State.reset : State where
  x := Vector.replicate 16 0
  q := 0
  sr := 0
  ec := 0
  ew := 0
  blk := Vector.replicate 16 0
  key := Vector.replicate 16 0
  rk := Vector.replicate 11 (Vector.replicate 16 0)
  mat := Vector.replicate 8 0
  cst := 0
  tbl := Vector.replicate 4 (Vector.replicate 256 0)
  w := Vector.replicate 256 0
  cmds := []
  responses := []

/-- How a step of the model stops with a fault: it never does. `exec` of the spec is total, every word executes or raises one
of the five faults above, and "there is ... no state from which the unit cannot continue" (rules R311, R343). Safe: nothing
raises it. -/
inductive Fault where
  deriving DecidableEq, Repr

/-- Why a step of the model has no meaning for a command. -/
inductive Refusal where
  /-- Raised by `exec` for a command whose meaning is not written; no arm raises it, every command has its meaning. Safe. -/
  | notModelled (mnemonic : String)
  deriving DecidableEq, Repr

/-- What a meaning answers. -/
abbrev Result := Host.Outcome State Fault Refusal

end Sys2Proof.Machine
end

