-- ==== Sys2Proof/Machine/Operands.lean ====
section
/-! DEFINITION. The operands of a command: index, round and preset numbers checked against their ranges (rule R74, step 4 of
rule R78), slots read (rules R30, R31) and destination slots checked for write protection (step 5 of rule R78). Nothing is
wrapped, masked or clamped (rules R55, R303). -/
namespace Sys2Proof.Machine

/-- An operand that must be below `n`, as an index of `n` elements; `none` is out of range. -/
def checkRange {w : Nat} (n : Nat) (v : BitVec w) : Option (Fin n) :=
  if h : v.toNat < n then some ⟨v.toNat, h⟩ else none

/-- The table in a slot (rules R14, R30, R31): slots 0..3 are state, 4..7 constants, 8..15 do not exist. -/
def State.table? (s : State) (n : SlotNum) : Option Table :=
  if h : n.toNat < 4 then some s.tbl[n.toNat]
  else if n = 4 then some Config.aesSbox
  else if n = 5 then some Config.aesInv
  else if n = 6 then some Config.k44Sbox
  else if n = 7 then some Config.k44Inv
  else none

/-- A destination slot: one of the four writable ones, or the fault that refuses it (rules R303, R304). -/
def destSlot (n : SlotNum) : Except FaultCode (Fin 4) :=
  if h : n.toNat < 4 then .ok ⟨n.toNat, h⟩
  else if n.toNat < 8 then .error .readOnlyTable
  else .error .operandRange

/-- A source and a destination slot of one command: either being out of range comes before the destination being read-only
(rules R303, R308). The source table is read whole (rule R58). -/
def State.slots (s : State) (td ts : SlotNum) : Except FaultCode (Fin 4 × Table) :=
  match s.table? ts with
  | none => .error .operandRange
  | some t => (destSlot td).map fun d => (d, t)

/-- The presets `PRE[0]`, `PRE[1]` (rule R35). -/
def preset (p : Fin 2) : Config.Preset := if p = 0 then Config.aesPreset else Config.k44Preset

end Sys2Proof.Machine
end

