-- ==== Sys2Proof/Machine/Ops.lean ====
section
/-! DEFINITION. The named operations on the state: one update per field, the element writes of rule R54, how a command ends
(rule R12) and how it raises a fault (rule R305). There is no return from a fault to model: the next command simply runs
(rule R309). -/
namespace Sys2Proof.Machine

/-! ### One update per field -/

def State.withX (s : State) (v : Vector Byte 16) : State := { s with x := v }
def State.withQ (s : State) (v : Half) : State := { s with q := v }
def State.withSr (s : State) (v : Byte) : State := { s with sr := v }
def State.withEc (s : State) (v : Byte) : State := { s with ec := v }
def State.withEw (s : State) (v : Word) : State := { s with ew := v }
def State.withBlk (s : State) (v : Block) : State := { s with blk := v }
def State.withKey (s : State) (v : Block) : State := { s with key := v }
def State.withRk (s : State) (v : RoundKeys) : State := { s with rk := v }
def State.withMat (s : State) (v : Matrix) : State := { s with mat := v }
def State.withCst (s : State) (v : Byte) : State := { s with cst := v }
def State.withTbl (s : State) (v : Vector Table 4) : State := { s with tbl := v }
def State.withW (s : State) (v : WalshArray) : State := { s with w := v }
def State.withCmds (s : State) (v : List Word) : State := { s with cmds := v }
def State.withResponses (s : State) (v : List Response) : State := { s with responses := v }

/-! ### Registers and elements (rules R11, R21, R54) -/

/-- `x[r]`. -/
def State.reg (s : State) (r : RegNum) : Byte := s.x[r.toNat]'r.isLt

/-- `x[r] <- v`. -/
def State.setReg (s : State) (r : RegNum) (v : Byte) : State := s.withX (s.x.set r.toNat v r.isLt)

/-- `BLK[i] <- v`. -/
def State.setBlkByte (s : State) (i : Fin 16) (v : Byte) : State := s.withBlk (s.blk.set i v)

/-- `KEY[i] <- v`. -/
def State.setKeyByte (s : State) (i : Fin 16) (v : Byte) : State := s.withKey (s.key.set i v)

/-- `MAT[i] <- v`. -/
def State.setMatRow (s : State) (i : Fin 8) (v : Byte) : State := s.withMat (s.mat.set i v)

/-- `TBL[d] <- t`, all 256 entries. -/
def State.setTable (s : State) (d : Fin 4) (t : Table) : State := s.withTbl (s.tbl.set d t)

/-- `TBL[d][v] <- b`. -/
def State.setTableEntry (s : State) (d : Fin 4) (v b : Byte) : State := s.setTable d (setEntry s.tbl[d] v b)

/-! ### How a command ends -/

/-- Give one response, after those already given (rules R12, R338). -/
def State.answer (s : State) (r : Response) : State := s.withResponses (s.responses ++ [r])

/-- `respond(v)`: the response is `(0x00, v)` (rule R12). -/
def respond (s : State) (v : Word) : Result := .next (s.answer ⟨0x00, v⟩)

/-- The end of a command whose rule has no `respond`: `(0x00, 0)` (rules R12, R100). -/
def done (s : State) : Result := respond s 0

/-- What raising a fault leaves: `EC` the code, `EW` the command word, the response `(code, 0)`, and nothing else changed
(rule R305). -/
def State.faulted (s : State) (f : FaultCode) (c : Word) : State :=
  ((s.withEc f.code).withEw c).answer ⟨f.code, 0⟩

/-- `raise F(c)` (rule R305): the command ends, the unit goes on (rule R309). -/
def raise (f : FaultCode) (c : Word) (s : State) : Result := .next (s.faulted f c)

end Sys2Proof.Machine
end

