-- ==== Sys2Proof/Machine/Block.lean ====
section
/-! DEFINITION. The meanings of the key expansion and block engine commands (44_block_engine.md). -/
namespace Sys2Proof.Machine

/-- KEYEXP (rule R201). -/
def execKeyexp (s : State) : Result := done ((s.withRk (keyExpansion s.key)).withSr (setRkv s.sr))

/-- ENCB (rule R203): OperandRange before KeyNotExpanded (rule R308). -/
def execEncb (ts : SlotNum) (s : State) : Result :=
  match s.table? ts with
  | none => raise .operandRange (encode (.encb ts)) s
  | some t =>
    if rkvFlag s.sr then done (s.withBlk (encryptBlock s.blk s.rk t)) else raise .keyNotExpanded (encode (.encb ts)) s

/-- DECB (rule R205). -/
def execDecb (ts : SlotNum) (s : State) : Result :=
  match s.table? ts with
  | none => raise .operandRange (encode (.decb ts)) s
  | some t =>
    if rkvFlag s.sr then done (s.withBlk (decryptBlock s.blk s.rk t)) else raise .keyNotExpanded (encode (.decb ts)) s

end Sys2Proof.Machine
end

