-- ==== Sys2Proof/Machine/Cryptan.lean ====
section
/-! DEFINITION. The meanings of the cryptanalysis commands (45_cryptanalysis.md). A metric command reads one slot and writes
`q` and nothing else (rule R249). -/
namespace Sys2Proof.Machine

/-- WLOAD (rule R222). -/
def execWload (ts : SlotNum) (mask : Byte) (s : State) : Result :=
  match s.table? ts with
  | none => raise .operandRange (encode (.wload ts mask)) s
  | some t => done (s.withW (walshLoad t mask))

/-- FWHT (rule R225). -/
def execFwht (s : State) : Result := done (s.withW (fwht s.w))

/-- Write an integer to `q` and respond with it (rules R220, R226). The value fits 16 bits (rule R24, log entry 11). -/
def respondQ (s : State) (n : Nat) : Result := respond (s.withQ (BitVec.ofNat 16 n)) ((BitVec.ofNat 16 n).setWidth 32)

/-- WMAX (rule R226). -/
def execWmax (s : State) : Result := respondQ s (walshMax s.w)

/-- A metric command with word `c` over the table in slot `ts` (rules R220, R249, R250). -/
def metric (f : Table → Nat) (c : Word) (ts : SlotNum) (s : State) : Result :=
  match s.table? ts with
  | none => raise .operandRange c s
  | some t => respondQ s (f t)

/-- NL (rule R228). -/
def execNl (ts : SlotNum) (s : State) : Result := metric nonLinearity (encode (.nl ts)) ts s

/-- SAC (rule R230). -/
def execSac (ts : SlotNum) (s : State) : Result := metric sacSum (encode (.sac ts)) ts s

/-- LAP (rule R232). -/
def execLap (ts : SlotNum) (s : State) : Result := metric lapMax (encode (.lap ts)) ts s

/-- DAP (rule R234). -/
def execDap (ts : SlotNum) (s : State) : Result := metric dapMax (encode (.dap ts)) ts s

/-- DU (rule R236). -/
def execDu (ts : SlotNum) (s : State) : Result := metric diffUniformity (encode (.du ts)) ts s

/-- AD (rule R243). -/
def execAd (ts : SlotNum) (s : State) : Result := metric algebraicDegree (encode (.ad ts)) ts s

/-- BIC (rule R245). -/
def execBic (ts : SlotNum) (s : State) : Result := metric bitIndependence (encode (.bic ts)) ts s

/-- FIXP (rule R247). -/
def execFixp (ts : SlotNum) (s : State) : Result := metric fixedPoints (encode (.fixp ts)) ts s

end Sys2Proof.Machine
end

