-- ==== Sys2Proof/Machine/DataMove.lean ====
section
/-! DEFINITION. The meanings of the data movement and status commands (40_data_movement.md). The word a fault records is the
command's own word, `encode` of the command (log entry 3). -/
namespace Sys2Proof.Machine

/-- NOP (rule R101). -/
def execNop (s : State) : Result := done s

/-- LDI (rule R102). -/
def execLdi (rd : RegNum) (imm8 : Byte) (s : State) : Result := done (s.setReg rd imm8)

/-- MOV (rule R103). -/
def execMov (rd ra : RegNum) (s : State) : Result := done (s.setReg rd (s.reg ra))

/-- RDX (rule R104). -/
def execRdx (ra : RegNum) (s : State) : Result := respond s ((s.reg ra).setWidth 32)

/-- RDQ (rule R105). -/
def execRdq (s : State) : Result := respond s (s.q.setWidth 32)

/-- RDSR (rule R106). -/
def execRdsr (s : State) : Result := respond s (readSr s.sr)

/-- RDEC (rule R107). -/
def execRdec (s : State) : Result := respond s (s.ec.setWidth 32)

/-- RDEW (rule R108). -/
def execRdew (s : State) : Result := respond s s.ew

/-- CLRF (rule R109). -/
def execClrf (s : State) : Result := done ((s.withEc 0).withEw 0)

/-- BWI (rule R110). -/
def execBwi (idx imm8 : Byte) (s : State) : Result :=
  match checkRange 16 idx with
  | none => raise .operandRange (encode (.bwi idx imm8)) s
  | some i => done (s.setBlkByte i imm8)

/-- BRD (rule R111). -/
def execBrd (idx : Byte) (s : State) : Result :=
  match checkRange 16 idx with
  | none => raise .operandRange (encode (.brd idx)) s
  | some i => respond s (s.blk[i].setWidth 32)

/-- BST (rule R112). -/
def execBst (ra : RegNum) (idx : Byte) (s : State) : Result :=
  match checkRange 16 idx with
  | none => raise .operandRange (encode (.bst ra idx)) s
  | some i => done (s.setBlkByte i (s.reg ra))

/-- BLD (rule R113). -/
def execBld (rd : RegNum) (idx : Byte) (s : State) : Result :=
  match checkRange 16 idx with
  | none => raise .operandRange (encode (.bld rd idx)) s
  | some i => done (s.setReg rd s.blk[i])

/-- KWI (rule R114): RKV is cleared whatever the value; `RK` is left stale. -/
def execKwi (idx imm8 : Byte) (s : State) : Result :=
  match checkRange 16 idx with
  | none => raise .operandRange (encode (.kwi idx imm8)) s
  | some i => done ((s.setKeyByte i imm8).withSr (clearRkv s.sr))

/-- KRD (rule R115). -/
def execKrd (idx : Byte) (s : State) : Result :=
  match checkRange 16 idx with
  | none => raise .operandRange (encode (.krd idx)) s
  | some i => respond s (s.key[i].setWidth 32)

/-- RKRD (rule R116): RKV is not tested. -/
def execRkrd (rnd : BitVec 4) (idx : Byte) (s : State) : Result :=
  match checkRange 11 rnd, checkRange 16 idx with
  | some r, some i => respond s (s.rk[r][i].setWidth 32)
  | _, _ => raise .operandRange (encode (.rkrd rnd idx)) s

/-- MWI (rule R117). -/
def execMwi (idx imm8 : Byte) (s : State) : Result :=
  match checkRange 8 idx with
  | none => raise .operandRange (encode (.mwi idx imm8)) s
  | some i => done (s.setMatRow i imm8)

/-- MRD (rule R118). -/
def execMrd (idx : Byte) (s : State) : Result :=
  match checkRange 8 idx with
  | none => raise .operandRange (encode (.mrd idx)) s
  | some i => respond s (s.mat[i].setWidth 32)

/-- CWI (rule R119). -/
def execCwi (imm8 : Byte) (s : State) : Result := done (s.withCst imm8)

/-- CRD (rule R120). -/
def execCrd (s : State) : Result := respond s (s.cst.setWidth 32)

/-- TWI (rule R121). -/
def execTwi (td : SlotNum) (idx imm8 : Byte) (s : State) : Result :=
  match destSlot td with
  | .error f => raise f (encode (.twi td idx imm8)) s
  | .ok d => done (s.setTableEntry d idx imm8)

/-- TRD (rule R122). -/
def execTrd (ts : SlotNum) (idx : Byte) (s : State) : Result :=
  match s.table? ts with
  | none => raise .operandRange (encode (.trd ts idx)) s
  | some t => respond s ((entry t idx).setWidth 32)

/-- TLD (rule R123). -/
def execTld (rd : RegNum) (ts : SlotNum) (ra : RegNum) (s : State) : Result :=
  match s.table? ts with
  | none => raise .operandRange (encode (.tld rd ts ra)) s
  | some t => done (s.setReg rd (entry t (s.reg ra)))

/-- TST (rule R124). -/
def execTst (td : SlotNum) (ra rb : RegNum) (s : State) : Result :=
  match destSlot td with
  | .error f => raise f (encode (.tst td ra rb)) s
  | .ok d => done (s.setTableEntry d (s.reg ra) (s.reg rb))

/-- TCPY (rule R125). -/
def execTcpy (td ts : SlotNum) (s : State) : Result :=
  match s.slots td ts with
  | .error f => raise f (encode (.tcpy td ts)) s
  | .ok (d, t) => done (s.setTable d t)

/-- WRD (rule R126): the element sign-extended to 32 bits. -/
def execWrd (idx : Byte) (s : State) : Result := respond s ((entry s.w idx).signExtend 32)

end Sys2Proof.Machine
end

