-- ==== Sys2Proof/Machine/Gf256.lean ====
section
/-! DEFINITION. The meanings of the GF(2^8) commands (41_gf256.md). Operands are read before the result is written
(rule R58). -/
namespace Sys2Proof.Machine

/-- GFMUL (rule R142). -/
def execGfmul (rd ra rb : RegNum) (s : State) : Result := done (s.setReg rd (gfMul (s.reg ra) (s.reg rb)))

/-- GFINV (rule R144). -/
def execGfinv (rd ra : RegNum) (s : State) : Result := done (s.setReg rd (gfInv (s.reg ra)))

/-- XOR (rule R145). -/
def execXor (rd ra rb : RegNum) (s : State) : Result := done (s.setReg rd (s.reg ra ^^^ s.reg rb))

end Sys2Proof.Machine
end

