-- ==== Sys2Proof/Machine/Round.lean ====
section
/-! DEFINITION. The meanings of the round function commands (43_round_functions.md): `BLK` is read whole, then written whole
(rule R13). -/
namespace Sys2Proof.Machine

/-- SUBB (rule R181). -/
def execSubb (ts : SlotNum) (s : State) : Result :=
  match s.table? ts with
  | none => raise .operandRange (encode (.subb ts)) s
  | some t => done (s.withBlk (subBytes s.blk t))

/-- SHROW (rule R182). -/
def execShrow (s : State) : Result := done (s.withBlk (shiftRows s.blk))

/-- ISHROW (rule R183). -/
def execIshrow (s : State) : Result := done (s.withBlk (invShiftRows s.blk))

/-- MIXC (rule R184). -/
def execMixc (s : State) : Result := done (s.withBlk (mixColumns s.blk))

/-- IMIXC (rule R185). -/
def execImixc (s : State) : Result := done (s.withBlk (invMixColumns s.blk))

/-- ADDRK (rule R186): OperandRange before KeyNotExpanded (rule R308). -/
def execAddrk (rnd : Byte) (s : State) : Result :=
  match checkRange 11 rnd with
  | none => raise .operandRange (encode (.addrk rnd)) s
  | some r =>
    if rkvFlag s.sr then done (s.withBlk (addRoundKey s.blk s.rk[r])) else raise .keyNotExpanded (encode (.addrk rnd)) s

end Sys2Proof.Machine
end

