-- ==== Sys2Proof/Machine/Sbox.lean ====
section
/-! DEFINITION. The meanings of the S-box generator and checker commands (42_sbox.md). -/
namespace Sys2Proof.Machine

/-- SBGEN (rule R162): the result is not checked and BIJ not written. -/
def execSbgen (td : SlotNum) (s : State) : Result :=
  match destSlot td with
  | .error f => raise f (encode (.sbgen td)) s
  | .ok d => done (s.setTable d (fromAffine s.mat s.cst))

/-- SBCHK (rule R164): the answer goes to BIJ and into the response. -/
def execSbchk (ts : SlotNum) (s : State) : Result :=
  match s.table? ts with
  | none => raise .operandRange (encode (.sbchk ts)) s
  | some t => respond (s.withSr (setBij s.sr (isBijection t))) (if isBijection t then 1 else 0)

/-- SBINV (rule R166): the checked inversion; a table that is no bijection raises NonBijectiveSBox (rule R307). -/
def execSbinv (td ts : SlotNum) (s : State) : Result :=
  match s.slots td ts with
  | .error f => raise f (encode (.sbinv td ts)) s
  | .ok (d, t) =>
    if isBijection t then done (s.setTable d (invert t)) else raise .nonBijectiveSBox (encode (.sbinv td ts)) s

/-- SBINVL (rule R167): the legacy inversion, never NonBijectiveSBox. -/
def execSbinvl (td ts : SlotNum) (s : State) : Result :=
  match s.slots td ts with
  | .error f => raise f (encode (.sbinvl td ts)) s
  | .ok (d, t) => done (s.setTable d (invert t))

/-- MPRE (rule R168). -/
def execMpre (p : Byte) (s : State) : Result :=
  match checkRange 2 p with
  | none => raise .operandRange (encode (.mpre p)) s
  | some i => done ((s.withMat (preset i).mat).withCst (preset i).cst)

end Sys2Proof.Machine
end

