-- ==== Sys2Proof/Machine/Dispatch.lean ====
section
/-! DEFINITION. One arm per command: its meaning (rules R101 to R247). -/
namespace Sys2Proof.Machine

def exec (i : Instr) (s : State) : Host.Outcome State Fault Refusal :=
  match i with
  | .nop => Sys2Proof.Machine.execNop s
  | .ldi rd imm8 => Sys2Proof.Machine.execLdi rd imm8 s
  | .mov rd ra => Sys2Proof.Machine.execMov rd ra s
  | .rdx ra => Sys2Proof.Machine.execRdx ra s
  | .rdq => Sys2Proof.Machine.execRdq s
  | .rdsr => Sys2Proof.Machine.execRdsr s
  | .rdec => Sys2Proof.Machine.execRdec s
  | .rdew => Sys2Proof.Machine.execRdew s
  | .clrf => Sys2Proof.Machine.execClrf s
  | .bwi idx imm8 => Sys2Proof.Machine.execBwi idx imm8 s
  | .brd idx => Sys2Proof.Machine.execBrd idx s
  | .bst ra idx => Sys2Proof.Machine.execBst ra idx s
  | .bld rd idx => Sys2Proof.Machine.execBld rd idx s
  | .kwi idx imm8 => Sys2Proof.Machine.execKwi idx imm8 s
  | .krd idx => Sys2Proof.Machine.execKrd idx s
  | .rkrd rnd idx => Sys2Proof.Machine.execRkrd rnd idx s
  | .mwi idx imm8 => Sys2Proof.Machine.execMwi idx imm8 s
  | .mrd idx => Sys2Proof.Machine.execMrd idx s
  | .cwi imm8 => Sys2Proof.Machine.execCwi imm8 s
  | .crd => Sys2Proof.Machine.execCrd s
  | .twi td idx imm8 => Sys2Proof.Machine.execTwi td idx imm8 s
  | .trd ts idx => Sys2Proof.Machine.execTrd ts idx s
  | .tld rd ts ra => Sys2Proof.Machine.execTld rd ts ra s
  | .tst td ra rb => Sys2Proof.Machine.execTst td ra rb s
  | .tcpy td ts => Sys2Proof.Machine.execTcpy td ts s
  | .wrd idx => Sys2Proof.Machine.execWrd idx s
  | .gfmul rd ra rb => Sys2Proof.Machine.execGfmul rd ra rb s
  | .gfinv rd ra => Sys2Proof.Machine.execGfinv rd ra s
  | .xor rd ra rb => Sys2Proof.Machine.execXor rd ra rb s
  | .sbgen td => Sys2Proof.Machine.execSbgen td s
  | .sbchk ts => Sys2Proof.Machine.execSbchk ts s
  | .sbinv td ts => Sys2Proof.Machine.execSbinv td ts s
  | .sbinvl td ts => Sys2Proof.Machine.execSbinvl td ts s
  | .mpre p => Sys2Proof.Machine.execMpre p s
  | .subb ts => Sys2Proof.Machine.execSubb ts s
  | .shrow => Sys2Proof.Machine.execShrow s
  | .ishrow => Sys2Proof.Machine.execIshrow s
  | .mixc => Sys2Proof.Machine.execMixc s
  | .imixc => Sys2Proof.Machine.execImixc s
  | .addrk rnd => Sys2Proof.Machine.execAddrk rnd s
  | .keyexp => Sys2Proof.Machine.execKeyexp s
  | .encb ts => Sys2Proof.Machine.execEncb ts s
  | .decb ts => Sys2Proof.Machine.execDecb ts s
  | .wload ts mask => Sys2Proof.Machine.execWload ts mask s
  | .fwht => Sys2Proof.Machine.execFwht s
  | .wmax => Sys2Proof.Machine.execWmax s
  | .nl ts => Sys2Proof.Machine.execNl ts s
  | .sac ts => Sys2Proof.Machine.execSac ts s
  | .lap ts => Sys2Proof.Machine.execLap ts s
  | .dap ts => Sys2Proof.Machine.execDap ts s
  | .du ts => Sys2Proof.Machine.execDu ts s
  | .ad ts => Sys2Proof.Machine.execAd ts s
  | .bic ts => Sys2Proof.Machine.execBic ts s
  | .fixp ts => Sys2Proof.Machine.execFixp ts s

end Sys2Proof.Machine
end

