-- ==== Sys2Proof/Machine/Port.lean ====
section
/-! DEFINITION. The command port: a command word is accepted, decoded and executed to completion, with exactly one response
(rules R17, R78, R338, R341). -/
namespace Sys2Proof.Machine

/-- One accepted word (rule R78): an undecodable word raises IllegalCommand (rule R302), any other runs its command. -/
def deliver (c : Word) (s : State) : Result :=
  match decode c with
  | .error _ => raise .illegalCommand c s
  | .ok i => exec i s

/-- One turn of the unit: with no word offered it holds its state and does nothing (rule R319), else it takes the next word in
issue order (rule R17). -/
def serve (s : State) : Result :=
  match s.cmds with
  | [] => .next s
  | c :: rest => deliver c (s.withCmds rest)

/-- The host offers a word before those still waiting. -/
def State.offer (s : State) (c : Word) : State := s.withCmds (c :: s.cmds)

/-- The spec's own `exec : State × Word32 -> State × Response` (rule R17): one word, the state it leaves and the response it
gives. The last two arms never apply (rule R343). -/
def transact (c : Word) (s : State) : State × Response :=
  match deliver c s with
  | .next t => (t, t.responses.getLastD ⟨0, 0⟩)
  | .fault f => nomatch f
  | .refused _ => (s, ⟨0, 0⟩)

end Sys2Proof.Machine
end

