-- ==== Sys2Proof/Machine/Step.lean ====
section
/-! DEFINITION. One step of the machine: one turn of the command port. -/
namespace Sys2Proof.Machine

/-- One step: the next command word runs to completion (rule R17); with none waiting nothing changes (rule R319). -/
def step (s : State) : Host.Outcome State Fault Refusal := serve s

/-- `s` with the table's word `w` of `nbits` bits offered as the very next command (log entry 1). -/
def State.withFetchWord (s : State) (nbits w : Nat) : State := s.offer (BitVec.ofNat 32 (w % 2 ^ nbits))

end Sys2Proof.Machine
end

