-- ==== Sys2Proof/Machine/Pseudo.lean ====
section
/-! DEFINITION. The pseudo-commands of rule R80: each stands for a list of commands and has no encoding of its own. -/
namespace Sys2Proof.Machine

/-- A pseudo-command with its operands (rule R80). -/
inductive Pseudo where
  | isubb (ts : SlotNum)
  | gfadd (rd ra rb : RegNum)
  | stats (ts : SlotNum)
  | ldblk (b : Block)
  | ldkey (k : Block)
  | ldmat (m : Matrix) (c : Byte)
  | rdblk
  deriving DecidableEq, Repr

/-- The index immediates 0..15, ascending. -/
def blockIndices : List (Fin 16) := List.finRange 16

/-- `LDBLK b0, ..., b15`. -/
def loadBlockCommands (b : Block) : List Instr := blockIndices.map fun i => .bwi (BitVec.ofNat 8 i.val) b[i]

/-- `LDKEY k0, ..., k15`. -/
def loadKeyCommands (k : Block) : List Instr := blockIndices.map fun i => .kwi (BitVec.ofNat 8 i.val) k[i]

/-- `LDMAT m0, ..., m7, c`. -/
def loadMatrixCommands (m : Matrix) (c : Byte) : List Instr :=
  (List.finRange 8).map (fun i => Instr.mwi (BitVec.ofNat 8 i.val) m[i]) ++ [.cwi c]

/-- `RDBLK`. -/
def readBlockCommands : List Instr := blockIndices.map fun i => .brd (BitVec.ofNat 8 i.val)

/-- `STATS ts`: each metric and an RDQ after it. -/
def statsCommands (ts : SlotNum) : List Instr :=
  [.nl ts, .rdq, .sac ts, .rdq, .lap ts, .rdq, .dap ts, .rdq, .du ts, .rdq, .ad ts, .rdq, .bic ts, .rdq, .fixp ts, .rdq]

/-- The expansion of a pseudo-command (rule R80). -/
def Pseudo.expand : Pseudo → List Instr
  | .isubb ts => [.subb ts]
  | .gfadd rd ra rb => [.xor rd ra rb]
  | .stats ts => statsCommands ts
  | .ldblk b => loadBlockCommands b
  | .ldkey k => loadKeyCommands k
  | .ldmat m c => loadMatrixCommands m c
  | .rdblk => readBlockCommands

end Sys2Proof.Machine
end

