-- ==== Sys2Proof/Machine/Text.lean ====
section
/-! DEFINITION. Text at the host: hexadecimal (rule R267) and UTF-8 (rule R266). A string is a list of characters (log
entry 14). -/
namespace Sys2Proof.Machine

/-- A character string of the host. -/
abbrev Text := List Char

/-! ### Digits -/

/-- The sixteen digits, lower case (rule R267). -/
def hexDigits : List Char := "0123456789abcdef".toList

/-- The digit of a value below 16. -/
def hexDigit (n : Nat) : Char := hexDigits.getD n '0'

/-- The value of a hexadecimal digit of either case (rule R267). -/
def hexValue (c : Char) : Option Nat :=
  let n := c.toNat
  if 48 ≤ n ∧ n ≤ 57 then some (n - 48)
  else if 97 ≤ n ∧ n ≤ 102 then some (n - 87)
  else if 65 ≤ n ∧ n ≤ 70 then some (n - 55)
  else none

/-- `bytesToHex(b)` (rule R267): two digits a byte, high nibble first. -/
def bytesToHex (b : List Byte) : Text := b.flatMap fun v => [hexDigit (v.toNat / 16), hexDigit (v.toNat % 16)]

/-- `hexToBytes(h)` (rule R267); `none` is the failure on an odd length or a character that is no digit. -/
def hexToBytes : Text → Option (List Byte)
  | [] => some []
  | [_] => none
  | h :: l :: rest =>
    match hexValue h, hexValue l, hexToBytes rest with
    | some a, some b, some bs => some (BitVec.ofNat 8 (16 * a + b) :: bs)
    | _, _, _ => none

/-! ### UTF-8 (the standard code, from general knowledge: rule R266, log entry 14) -/

/-- A continuation byte holding the six bits of `n` from bit `6 * k` up. -/
def utf8Tail (n k : Nat) : Byte := BitVec.ofNat 8 (0x80 + n / 64 ^ k % 64)

/-- The bytes of one character. -/
def utf8Char (c : Char) : List Byte :=
  let n := c.toNat
  if n < 0x80 then [BitVec.ofNat 8 n]
  else if n < 0x800 then [BitVec.ofNat 8 (0xC0 + n / 64), utf8Tail n 0]
  else if n < 0x10000 then [BitVec.ofNat 8 (0xE0 + n / 4096), utf8Tail n 1, utf8Tail n 0]
  else [BitVec.ofNat 8 (0xF0 + n / 262144), utf8Tail n 2, utf8Tail n 1, utf8Tail n 0]

/-- `stringToBytes(s)` (rule R266). -/
def stringToBytes (s : Text) : List Byte := s.flatMap utf8Char

/-- The character of a code point: not a surrogate, not above 0x10FFFF. -/
def charOf? (n : Nat) : Option Char := if n.isValidChar then some (Char.ofNat n) else none

/-- The low six bits of a continuation byte. -/
def utf8TailValue (b : Byte) : Option Nat := if b.toNat / 64 = 2 then some (b.toNat % 64) else none

/-- The first character of a byte sequence and the bytes after it. An over-long form, a stray or missing continuation byte, a
surrogate or a value above 0x10FFFF is invalid. -/
def utf8Next : List Byte → Option (Char × List Byte)
  | [] => none
  | b0 :: r0 =>
    let v := b0.toNat
    if v < 0x80 then (charOf? v).map fun c => (c, r0)
    else
      match r0 with
      | [] => none
      | b1 :: r1 =>
        match utf8TailValue b1 with
        | none => none
        | some t1 =>
          if 0xC2 ≤ v ∧ v < 0xE0 then (charOf? ((v - 0xC0) * 64 + t1)).map fun c => (c, r1)
          else
            match r1 with
            | [] => none
            | b2 :: r2 =>
              match utf8TailValue b2 with
              | none => none
              | some t2 =>
                if 0xE0 ≤ v ∧ v < 0xF0 then
                  let n := (v - 0xE0) * 4096 + t1 * 64 + t2
                  if n < 0x800 then none else (charOf? n).map fun c => (c, r2)
                else
                  match r2 with
                  | [] => none
                  | b3 :: r3 =>
                    match utf8TailValue b3 with
                    | none => none
                    | some t3 =>
                      let n := (v - 0xF0) * 262144 + t1 * 4096 + t2 * 64 + t3
                      if 0xF0 ≤ v ∧ v < 0xF5 ∧ 0x10000 ≤ n then (charOf? n).map fun c => (c, r3) else none

/-- `fuel` characters at most of a byte sequence. -/
def utf8Decode : Nat → List Byte → Option Text
  | _, [] => some []
  | 0, _ :: _ => none
  | fuel + 1, b :: bs =>
    match utf8Next (b :: bs) with
    | none => none
    | some (c, rest) => (utf8Decode fuel rest).map (c :: ·)

/-- `bytesToString(b)` (rule R266); `none` is `DecodeError`. A character takes at least one byte, so the length is fuel
enough. -/
def bytesToString (b : List Byte) : Option Text := utf8Decode b.length b

end Sys2Proof.Machine
end

