-- ==== Sys2Proof/Machine/Assembly.lean ====
section
/-! DEFINITION. The assembly syntax of rule R79: how a command is written, and the assembler that reads one line (a command
or a pseudo-command of rule R80) into the commands it stands for. -/
namespace Sys2Proof.Machine

/-- The upper-case name of a mnemonic (rules R75, R79). -/
def mnemonicText : Mnemonic → Text
  | .nop => "NOP".toList
  | .ldi => "LDI".toList
  | .mov => "MOV".toList
  | .rdx => "RDX".toList
  | .rdq => "RDQ".toList
  | .rdsr => "RDSR".toList
  | .rdec => "RDEC".toList
  | .rdew => "RDEW".toList
  | .clrf => "CLRF".toList
  | .bwi => "BWI".toList
  | .brd => "BRD".toList
  | .bst => "BST".toList
  | .bld => "BLD".toList
  | .kwi => "KWI".toList
  | .krd => "KRD".toList
  | .rkrd => "RKRD".toList
  | .mwi => "MWI".toList
  | .mrd => "MRD".toList
  | .cwi => "CWI".toList
  | .crd => "CRD".toList
  | .twi => "TWI".toList
  | .trd => "TRD".toList
  | .tld => "TLD".toList
  | .tst => "TST".toList
  | .tcpy => "TCPY".toList
  | .wrd => "WRD".toList
  | .gfmul => "GFMUL".toList
  | .gfinv => "GFINV".toList
  | .xor => "XOR".toList
  | .sbgen => "SBGEN".toList
  | .sbchk => "SBCHK".toList
  | .sbinv => "SBINV".toList
  | .sbinvl => "SBINVL".toList
  | .mpre => "MPRE".toList
  | .subb => "SUBB".toList
  | .shrow => "SHROW".toList
  | .ishrow => "ISHROW".toList
  | .mixc => "MIXC".toList
  | .imixc => "IMIXC".toList
  | .addrk => "ADDRK".toList
  | .keyexp => "KEYEXP".toList
  | .encb => "ENCB".toList
  | .decb => "DECB".toList
  | .wload => "WLOAD".toList
  | .fwht => "FWHT".toList
  | .wmax => "WMAX".toList
  | .nl => "NL".toList
  | .sac => "SAC".toList
  | .lap => "LAP".toList
  | .dap => "DAP".toList
  | .du => "DU".toList
  | .ad => "AD".toList
  | .bic => "BIC".toList
  | .fixp => "FIXP".toList

/-- An operand as it is written: a register `x0` to `x15`, a slot `t0` to `t7`, or a number (rule R79). -/
inductive Operand where
  | reg (r : RegNum)
  | slot (t : SlotNum)
  | num (n : Nat)
  deriving DecidableEq, Repr

/-- The operands of a command in assembly order, the order of the `fields` column (rule R79). -/
def operandsOf : Instr → List Operand
  | .nop => []
  | .ldi rd imm8 => [.reg rd, .num imm8.toNat]
  | .mov rd ra => [.reg rd, .reg ra]
  | .rdx ra => [.reg ra]
  | .rdq => []
  | .rdsr => []
  | .rdec => []
  | .rdew => []
  | .clrf => []
  | .bwi idx imm8 => [.num idx.toNat, .num imm8.toNat]
  | .brd idx => [.num idx.toNat]
  | .bst ra idx => [.reg ra, .num idx.toNat]
  | .bld rd idx => [.reg rd, .num idx.toNat]
  | .kwi idx imm8 => [.num idx.toNat, .num imm8.toNat]
  | .krd idx => [.num idx.toNat]
  | .rkrd rnd idx => [.num rnd.toNat, .num idx.toNat]
  | .mwi idx imm8 => [.num idx.toNat, .num imm8.toNat]
  | .mrd idx => [.num idx.toNat]
  | .cwi imm8 => [.num imm8.toNat]
  | .crd => []
  | .twi td idx imm8 => [.slot td, .num idx.toNat, .num imm8.toNat]
  | .trd ts idx => [.slot ts, .num idx.toNat]
  | .tld rd ts ra => [.reg rd, .slot ts, .reg ra]
  | .tst td ra rb => [.slot td, .reg ra, .reg rb]
  | .tcpy td ts => [.slot td, .slot ts]
  | .wrd idx => [.num idx.toNat]
  | .gfmul rd ra rb => [.reg rd, .reg ra, .reg rb]
  | .gfinv rd ra => [.reg rd, .reg ra]
  | .xor rd ra rb => [.reg rd, .reg ra, .reg rb]
  | .sbgen td => [.slot td]
  | .sbchk ts => [.slot ts]
  | .sbinv td ts => [.slot td, .slot ts]
  | .sbinvl td ts => [.slot td, .slot ts]
  | .mpre p => [.num p.toNat]
  | .subb ts => [.slot ts]
  | .shrow => []
  | .ishrow => []
  | .mixc => []
  | .imixc => []
  | .addrk rnd => [.num rnd.toNat]
  | .keyexp => []
  | .encb ts => [.slot ts]
  | .decb ts => [.slot ts]
  | .wload ts mask => [.slot ts, .num mask.toNat]
  | .fwht => []
  | .wmax => []
  | .nl ts => [.slot ts]
  | .sac ts => [.slot ts]
  | .lap ts => [.slot ts]
  | .dap ts => [.slot ts]
  | .du ts => [.slot ts]
  | .ad ts => [.slot ts]
  | .bic ts => [.slot ts]
  | .fixp ts => [.slot ts]

/-! ### Writing -/

/-- A number below 16 in decimal. -/
def smallDecimal (n : Nat) : Text := if n < 10 then [hexDigit n] else ['1', hexDigit (n - 10)]

/-- A number below 256 as `0x` and two digits. -/
def byteText (n : Nat) : Text := ['0', 'x', hexDigit (n / 16), hexDigit (n % 16)]

/-- An operand as text. -/
def operandText : Operand → Text
  | .reg r => 'x' :: smallDecimal r.toNat
  | .slot t => 't' :: smallDecimal t.toNat
  | .num n => byteText n

/-- Operands separated by commas. -/
def operandListText : List Operand → Text
  | [] => []
  | [a] => operandText a
  | a :: rest => operandText a ++ [',', ' '] ++ operandListText rest

/-- The assembly form of a command (rule R79). -/
def assemblyText (i : Instr) : Text :=
  mnemonicText i.mnemonic ++ (if (operandsOf i).isEmpty then [] else ' ' :: operandListText (operandsOf i))

/-! ### Reading -/

/-- A numeral in a base: at least one digit, each below the base. -/
def readDigits (base : Nat) : Text → Option Nat
  | [] => none
  | c :: cs =>
    (c :: cs).foldl
      (fun acc d =>
        match acc, hexValue d with
        | some n, some v => if v < base then some (base * n + v) else none
        | _, _ => none)
      (some 0)

/-- A number, decimal or `0x` hexadecimal (rule R79). -/
def readNumber : Text → Option Nat
  | '0' :: 'x' :: ds => readDigits 16 ds
  | ds => readDigits 10 ds

/-- One operand (rule R79): registers are `x0` to `x15`, slots `t0` to `t7`, every other operand is a number. -/
def readOperand : Text → Option Operand
  | 'x' :: ds =>
    match readDigits 10 ds with
    | some n => if n < 16 then some (.reg (BitVec.ofNat 4 n)) else none
    | none => none
  | 't' :: ds =>
    match readDigits 10 ds with
    | some n => if n < 8 then some (.slot (BitVec.ofNat 4 n)) else none
    | none => none
  | ds => (readNumber ds).map .num

/-- Blanks that may stand between the parts of a line. -/
def isBlank (c : Char) : Bool := c == ' ' || c == '\t'

/-- A text without the blanks at its two ends. -/
def trim (t : Text) : Text := ((t.dropWhile isBlank).reverse.dropWhile isBlank).reverse

/-- The pieces of a text between the characters `sep`. -/
def splitAtChar (sep : Char) : Text → List Text
  | [] => [[]]
  | c :: cs =>
    if c == sep then [] :: splitAtChar sep cs
    else
      match splitAtChar sep cs with
      | [] => [[c]]
      | p :: ps => (c :: p) :: ps

/-- All of a list's options, or none. -/
def allSome {α : Type} : List (Option α) → Option (List α)
  | [] => some []
  | none :: _ => none
  | some a :: l => (allSome l).map (a :: ·)

/-- The operand part of a line: nothing, or operands separated by commas. -/
def readOperands (t : Text) : Option (List Operand) :=
  if (trim t).isEmpty then some [] else allSome ((splitAtChar ',' t).map fun p => readOperand (trim p))

/-- A number that fits a byte field. -/
def byteField {α : Type} (n : Nat) (f : Byte → α) : Option α := if n < 256 then some (f (BitVec.ofNat 8 n)) else none

/-- The command with a mnemonic and operands, if the operands are of its kinds and fit its fields (rules R73, R79). -/
def assembleCommand : Mnemonic → List Operand → Option Instr
  | .nop, [] => some Instr.nop
  | .ldi, [.reg rd, .num imm8] => byteField imm8 fun imm8 => Instr.ldi rd imm8
  | .mov, [.reg rd, .reg ra] => some (Instr.mov rd ra)
  | .rdx, [.reg ra] => some (Instr.rdx ra)
  | .rdq, [] => some Instr.rdq
  | .rdsr, [] => some Instr.rdsr
  | .rdec, [] => some Instr.rdec
  | .rdew, [] => some Instr.rdew
  | .clrf, [] => some Instr.clrf
  | .bwi, [.num idx, .num imm8] => (byteField idx fun idx => byteField imm8 fun imm8 => Instr.bwi idx imm8).join
  | .brd, [.num idx] => byteField idx fun idx => Instr.brd idx
  | .bst, [.reg ra, .num idx] => byteField idx fun idx => Instr.bst ra idx
  | .bld, [.reg rd, .num idx] => byteField idx fun idx => Instr.bld rd idx
  | .kwi, [.num idx, .num imm8] => (byteField idx fun idx => byteField imm8 fun imm8 => Instr.kwi idx imm8).join
  | .krd, [.num idx] => byteField idx fun idx => Instr.krd idx
  | .rkrd, [.num rnd, .num idx] => if rnd < 16 then byteField idx fun idx => Instr.rkrd (BitVec.ofNat 4 rnd) idx else none
  | .mwi, [.num idx, .num imm8] => (byteField idx fun idx => byteField imm8 fun imm8 => Instr.mwi idx imm8).join
  | .mrd, [.num idx] => byteField idx fun idx => Instr.mrd idx
  | .cwi, [.num imm8] => byteField imm8 fun imm8 => Instr.cwi imm8
  | .crd, [] => some Instr.crd
  | .twi, [.slot td, .num idx, .num imm8] => (byteField idx fun idx => byteField imm8 fun imm8 => Instr.twi td idx imm8).join
  | .trd, [.slot ts, .num idx] => byteField idx fun idx => Instr.trd ts idx
  | .tld, [.reg rd, .slot ts, .reg ra] => some (Instr.tld rd ts ra)
  | .tst, [.slot td, .reg ra, .reg rb] => some (Instr.tst td ra rb)
  | .tcpy, [.slot td, .slot ts] => some (Instr.tcpy td ts)
  | .wrd, [.num idx] => byteField idx fun idx => Instr.wrd idx
  | .gfmul, [.reg rd, .reg ra, .reg rb] => some (Instr.gfmul rd ra rb)
  | .gfinv, [.reg rd, .reg ra] => some (Instr.gfinv rd ra)
  | .xor, [.reg rd, .reg ra, .reg rb] => some (Instr.xor rd ra rb)
  | .sbgen, [.slot td] => some (Instr.sbgen td)
  | .sbchk, [.slot ts] => some (Instr.sbchk ts)
  | .sbinv, [.slot td, .slot ts] => some (Instr.sbinv td ts)
  | .sbinvl, [.slot td, .slot ts] => some (Instr.sbinvl td ts)
  | .mpre, [.num p] => byteField p fun p => Instr.mpre p
  | .subb, [.slot ts] => some (Instr.subb ts)
  | .shrow, [] => some Instr.shrow
  | .ishrow, [] => some Instr.ishrow
  | .mixc, [] => some Instr.mixc
  | .imixc, [] => some Instr.imixc
  | .addrk, [.num rnd] => byteField rnd fun rnd => Instr.addrk rnd
  | .keyexp, [] => some Instr.keyexp
  | .encb, [.slot ts] => some (Instr.encb ts)
  | .decb, [.slot ts] => some (Instr.decb ts)
  | .wload, [.slot ts, .num mask] => byteField mask fun mask => Instr.wload ts mask
  | .fwht, [] => some Instr.fwht
  | .wmax, [] => some Instr.wmax
  | .nl, [.slot ts] => some (Instr.nl ts)
  | .sac, [.slot ts] => some (Instr.sac ts)
  | .lap, [.slot ts] => some (Instr.lap ts)
  | .dap, [.slot ts] => some (Instr.dap ts)
  | .du, [.slot ts] => some (Instr.du ts)
  | .ad, [.slot ts] => some (Instr.ad ts)
  | .bic, [.slot ts] => some (Instr.bic ts)
  | .fixp, [.slot ts] => some (Instr.fixp ts)
  | _, _ => none

/-- The bytes of a list of number operands. -/
def bytesOf (ops : List Operand) : Option (List Byte) :=
  allSome (ops.map fun o =>
    match o with
    | .num n => byteField n id
    | _ => none)

/-- The pseudo-command with a name and operands (rule R80). -/
def assemblePseudo (name : Text) (ops : List Operand) : Option Pseudo :=
  if name = "ISUBB".toList then
    match ops with
    | [.slot ts] => some (.isubb ts)
    | _ => none
  else if name = "GFADD".toList then
    match ops with
    | [.reg rd, .reg ra, .reg rb] => some (.gfadd rd ra rb)
    | _ => none
  else if name = "STATS".toList then
    match ops with
    | [.slot ts] => some (.stats ts)
    | _ => none
  else if name = "LDBLK".toList then
    match bytesOf ops with
    | some b => if b.length = 16 then some (.ldblk (tabulate 16 fun i => b.getD i.val 0)) else none
    | none => none
  else if name = "LDKEY".toList then
    match bytesOf ops with
    | some b => if b.length = 16 then some (.ldkey (tabulate 16 fun i => b.getD i.val 0)) else none
    | none => none
  else if name = "LDMAT".toList then
    match bytesOf ops with
    | some b => if b.length = 9 then some (.ldmat (tabulate 8 fun i => b.getD i.val 0) (b.getD 8 0)) else none
    | none => none
  else if name = "RDBLK".toList then
    match ops with
    | [] => some .rdblk
    | _ => none
  else none

/-- The line without its comment: from `;` to the end of the line (rule R79). -/
def stripComment (line : Text) : Text := line.takeWhile fun c => c != ';'

/-- One line of assembly: the commands it stands for, none for a blank line; `none` is a line that is no assembly. -/
def assembleLine (line : Text) : Option (List Instr) :=
  let t := trim (stripComment line)
  if t.isEmpty then some []
  else
    let name := t.takeWhile fun c => !isBlank c
    match readOperands (t.drop name.length) with
    | none => none
    | some ops =>
      match Mnemonic.all.find? fun m => mnemonicText m == name with
      | some m => (assembleCommand m ops).map fun i => [i]
      | none => (assemblePseudo name ops).map Pseudo.expand

/-- A program text, one line per command, as the command words the host issues (rules R22, R79). -/
def assembleProgram (text : Text) : Option (List Word) :=
  (allSome ((splitAtChar '\n' text).map assembleLine)).map fun ls => ls.flatten.map encode

end Sys2Proof.Machine
end

