-- ==== Sys2Proof/Machine/Handshake.lean ====
section
/-! DEFINITION. The ports of the unit and their handshake, rising clock edge by rising clock edge, with the reset input (rules
R330, R338, R341). `step` works at the level of whole commands, as rules R17 and R338 allow a model to; this file puts the
ports round it. How many cycles a command takes is not specified (rule R339): it is an input here (log entry 17). -/
namespace Sys2Proof.Machine

/-- The spec's run: the fold of `transact` over a list of command words (rule R17). -/
def transactAll : List Word → State → State × List Response
  | [], s => (s, [])
  | c :: rest, s =>
    let (s1, r) := transact c s
    let (s2, rs) := transactAll rest s1
    (s2, r :: rs)

/-- What the unit samples at one rising edge of `clk` (rule R338), and the free choice of rule R339. -/
structure PortInputs where
  /-- `rst` -/
  rst : Bool
  /-- `cmd_valid` -/
  cmdValid : Bool
  /-- `cmd_word` -/
  cmdWord : Word
  /-- `rsp_ready` -/
  rspReady : Bool
  /-- no port: whether a command in progress finishes in this cycle (rule R339) -/
  finish : Bool
  deriving DecidableEq, Repr

/-- Where the unit stands in the handshake: at most one command is outstanding (rule R338). -/
inductive Phase where
  | ready
  | running (c : Word)
  | responding (r : Response)
  deriving DecidableEq, Repr

/-- The unit with its ports. -/
structure Chip where
  state : State
  phase : Phase
  deriving DecidableEq, Repr

/-- `cmd_ready`: 0 while `rst` is asserted (rule R330) and from the acceptance of a word until its response has been taken
(rule R338). -/
def Chip.cmdReady (u : Chip) (i : PortInputs) : Bool := !i.rst && u.phase == .ready

/-- `rsp_status` and `rsp_data` when `rsp_valid` is 1, `none` when it is 0; it is 0 while `rst` is asserted (rules R330,
R338). -/
def Chip.response? (u : Chip) (i : PortInputs) : Option Response :=
  if i.rst then none
  else
    match u.phase with
    | .ready => none
    | .running _ => none
    | .responding r => some r

/-- The word accepted at an edge: `cmd_valid` and `cmd_ready` are both 1 (rule R338). -/
def Chip.accepted? (u : Chip) (i : PortInputs) : Option Word := if u.cmdReady i && i.cmdValid then some i.cmdWord else none

/-- The response taken at an edge: `rsp_valid` and `rsp_ready` are both 1 (rule R338). -/
def Chip.taken? (u : Chip) (i : PortInputs) : Option Response := if i.rspReady then u.response? i else none

/-- One rising edge. `rst` abandons a command in progress without a response and leaves the reset state (rule R330); nothing
else abandons one (rule R341). -/
def Chip.clock (u : Chip) (i : PortInputs) : Chip :=
  if i.rst then ⟨State.reset, .ready⟩
  else
    match u.phase with
    | .ready => if i.cmdValid then ⟨u.state, .running i.cmdWord⟩ else u
    | .running c => if i.finish then ⟨(transact c u.state).1, .responding (transact c u.state).2⟩ else u
    | .responding _ => if i.rspReady then ⟨u.state, .ready⟩ else u

/-- Rising edges one after another: the unit after them, the words accepted and the responses taken, in order. -/
def Chip.clockAll : List PortInputs → Chip → Chip × List Word × List Response
  | [], u => (u, [], [])
  | i :: rest, u =>
    let (v, ws, rs) := Chip.clockAll rest (u.clock i)
    (v, (u.accepted? i).toList ++ ws, (u.taken? i).toList ++ rs)

end Sys2Proof.Machine
end

