-- ==== Sys2Proof/Machine/Service.lean ====
section
/-! DEFINITION. The host service procedures (46_host_service.md): functions over byte lists that issue commands to the unit
and read its responses (rule R260). A procedure answers the unit's state after it and its result. -/
namespace Sys2Proof.Machine

/-- The host-level errors (rules R274, R314). -/
inductive ServiceError where
  /-- a ciphertext whose length is no multiple of 16, or text that is no hexadecimal (rules R265, R267). -/
  | malformedCiphertext
  /-- decrypted bytes that are not valid UTF-8 (rule R266). -/
  | decodeError
  /-- the unit's fault 0x04 seen by the host (rule R271). -/
  | nonBijectiveSBox
  /-- reserved by the source, never raised (rule R261). -/
  | invalidKey
  deriving DecidableEq, Repr

/-- Issue one command and take its response. -/
def issue (i : Instr) (s : State) : State × Response := transact (encode i) s

/-- Issue commands in order and take their responses in order (rules R17, R338). -/
def issueAll : List Instr → State → State × List Response
  | [], s => (s, [])
  | i :: rest, s =>
    let (s1, r) := issue i s
    let (s2, rs) := issueAll rest s1
    (s2, r :: rs)

/-- The byte in a response's data. -/
def Response.byte (r : Response) : Byte := r.data.setWidth 8

/-! ### Keys and padding -/

/-- The 16 bytes from position `n` on, 0x00 where the sequence has ended. -/
def blockAt (b : List Byte) (n : Nat) : Block := tabulate 16 fun i => b.getD (n + i.val) 0

/-- `coerceKey(key)` (rule R261): the UTF-8 bytes cut to 16 or zero-padded to 16. -/
def coerceKey (key : Text) : Block := blockAt (stringToBytes key) 0

/-- `pad(b)` (rule R262). -/
def pad (b : List Byte) : List Byte :=
  let n := 16 - b.length % 16
  b ++ List.replicate n (BitVec.ofNat 8 n)

/-- `unpad(b)` (rule R263, decision D32). -/
def unpad (b : List Byte) : List Byte :=
  match b.getLast? with
  | none => b
  | some l =>
    let n := l.toNat
    if n = 0 ∨ 16 < n then b else if b.length < n then b else b.take (b.length - n)

/-- A byte sequence as its 16-byte chunks, in order; its length is a multiple of 16 (rules R264, R265). -/
def chunks (b : List Byte) : List Block := (List.range (b.length / 16)).map fun k => blockAt b (16 * k)

/-! ### Binary interface -/

/-- `LDKEY ...; KEYEXP` (rules R264, R265). -/
def loadKey (k : Block) (s : State) : State := (issueAll (loadKeyCommands k ++ [.keyexp]) s).1

/-- `LDBLK ...`, the block command, `RDBLK` for each chunk in turn (rules R264, R265). -/
def runBlocks (cmd : Instr) : List Block → State → State × List Byte
  | [], s => (s, [])
  | b :: rest, s =>
    let s1 := (issueAll (loadBlockCommands b ++ [cmd]) s).1
    let (s2, rs) := issueAll readBlockCommands s1
    let (s3, out) := runBlocks cmd rest s2
    (s3, rs.map Response.byte ++ out)

/-- The number of a slot that exists, as a slot operand. -/
def slotOf (ts : Fin 8) : SlotNum := BitVec.ofNat 4 ts.val

/-- `encryptData(b, key, ts)` (rule R264); `ts` is the slot that holds the S-box. -/
def encryptData (b : List Byte) (key : Text) (ts : Fin 8) (s : State) : State × List Byte :=
  runBlocks (.encb (slotOf ts)) (chunks (pad b)) (loadKey (coerceKey key) s)

/-- `decryptData(c, key, ts)` (rule R265); `ts` holds the inverse S-box. A bad length fails before any command. -/
def decryptData (c : List Byte) (key : Text) (ts : Fin 8) (s : State) : State × Except ServiceError (List Byte) :=
  if c.length % 16 ≠ 0 then (s, .error .malformedCiphertext)
  else
    let (t, out) := runBlocks (.decb (slotOf ts)) (chunks c) (loadKey (coerceKey key) s)
    (t, .ok (unpad out))

/-! ### Text interface -/

/-- `encrypt(plaintext, key, sbox)` (rule R268). -/
def encrypt (plaintext key : Text) (ts : Fin 8) (s : State) : State × Text :=
  let (t, out) := encryptData (stringToBytes plaintext) key ts s
  (t, bytesToHex out)

/-- `decrypt(ciphertextHex, key, invSbox)` (rule R269): hexadecimal form, then length, then UTF-8. -/
def decrypt (ciphertextHex key : Text) (ts : Fin 8) (s : State) : State × Except ServiceError Text :=
  match hexToBytes ciphertextHex with
  | none => (s, .error .malformedCiphertext)
  | some c =>
    match decryptData c key ts s with
    | (t, .error e) => (t, .error e)
    | (t, .ok b) =>
      match bytesToString b with
      | none => (t, .error .decodeError)
      | some p => (t, .ok p)

/-! ### S-box interface -/

/-- The row byte of a row of bits: column 0 is bit 7 (rule R163). -/
def rowByte (row : Vector Bool 8) : Byte :=
  BitVec.ofNat 8 ((List.finRange 8).map fun c => (row[c]).toNat <<< (7 - c.val)).sum

/-- The 256 data bytes of `TRD ts, 0 ... TRD ts, 255`. -/
def readTable (ts : SlotNum) (s : State) : State × Table :=
  let (t, rs) := issueAll (allBytes.map fun i => Instr.trd ts i) s
  (t, tabulateBytes fun i => (rs.getD i.toNat ⟨0, 0⟩).byte)

/-- Load a caller's table with 256 TWI (rule R271). -/
def loadTable (td : SlotNum) (sbox : Table) (s : State) : State :=
  (issueAll (allBytes.map fun i => Instr.twi td i (entry sbox i)) s).1

/-- `generateSBoxFromAffine(matrix, constant)` (rule R270). -/
def generateSBoxFromAffine (m : Vector (Vector Bool 8) 8) (c : Byte) (s : State) : State × Table :=
  let s1 := (issueAll (loadMatrixCommands (tabulate 8 fun r => rowByte m[r]) c) s).1
  let s2 := (issue (.sbgen 0) s1).1
  readTable 0 s2

/-- `invertSBox(sbox)` with SBINV (rule R271). -/
def invertSBox (sbox : Table) (s : State) : State × Except ServiceError Table :=
  let s1 := loadTable 0 sbox s
  let (s2, r) := issue (.sbinv 1 0) s1
  if r.status = FaultCode.nonBijectiveSBox.code then (s2, .error .nonBijectiveSBox)
  else
    let (s3, t) := readTable 1 s2
    (s3, .ok t)

/-- The reference's unchecked inversion: SBINVL in place of SBINV, never a failure (rule R271). -/
def invertSBoxLegacy (sbox : Table) (s : State) : State × Table :=
  let s1 := loadTable 0 sbox s
  let s2 := (issue (.sbinvl 1 0) s1).1
  readTable 1 s2

/-- The record of `computeStatistics`; the three fractions are exact quotients (rules R220, R272, log entry 15). -/
structure Statistics where
  nl : Nat
  sac : Rat
  lap : Rat
  dap : Rat
  du : Nat
  ad : Nat
  bic : Nat
  fixedPoints : Nat
  deriving DecidableEq, Repr

/-- The host's divisions of the eight values of `q` (rule R272): the data of the RDQ after each metric. -/
def statisticsOf (q : Nat → Nat) : Statistics :=
  { nl := q 0, sac := (q 1 : Rat) / 16384, lap := (q 2 : Rat) / 512, dap := (q 3 : Rat) / 256, du := q 4, ad := q 5,
    bic := q 6, fixedPoints := q 7 }

/-- `computeStatistics(sbox)` (rule R272) for the table in slot `ts`: the pseudo-command STATS and the divisions. -/
def computeStatistics (ts : Fin 8) (s : State) : State × Statistics :=
  let (t, rs) := issueAll (statsCommands (slotOf ts)) s
  (t, statisticsOf fun k => (rs.getD (2 * k + 1) ⟨0, 0⟩).data.toNat)

end Sys2Proof.Machine
end

