-- ==== Sys2Proof/Safety.lean ====
section
/-! DEFINITION. What holds in every state of a run: the invariants of SLC-CORE in the terms the statements use. -/
namespace Sys2Proof.Safety

open Sys2Proof.Machine

/-- Bits 7:2 of `SR` are 0, always (rule R23). -/
abbrev StatusBitsZero (s : State) : Prop := s.sr &&& 0xFC = 0

/-- When RKV is 1, `RK` is the expansion of the present `KEY` (rule R41). -/
abbrev RoundKeysFresh (s : State) : Prop := rkvFlag s.sr = true → s.rk = keyExpansion s.key

/-- The fault record holds a code of rule R301, and no word when it holds no fault (rule R25). -/
abbrev FaultRecordLegal (s : State) : Prop := s.ec.toNat ≤ 5 ∧ (s.ec = 0 → s.ew = 0)

/-- `q` is at most 32768, the largest value any command writes (rule R24). -/
abbrev ResultBounded (s : State) : Prop := s.q.toNat ≤ 32768

/-- Every response is legal: a status of rule R301, and data 0 when it reports a fault (rules R301, R305). -/
abbrev ResponsesLegal (s : State) : Prop := ∀ r ∈ s.responses, r.status.toNat ≤ 5 ∧ (r.status ≠ 0 → r.data = 0)

/-- All of them. -/
abbrev Inv (s : State) : Prop :=
  StatusBitsZero s ∧ RoundKeysFresh s ∧ FaultRecordLegal s ∧ ResultBounded s ∧ ResponsesLegal s

/-- A safe run: from a state, any number of steps ends in a next state in which the invariants hold (rules R311, R343). -/
def SafeRun (s : State) : Prop := ∀ n, ∃ t, Sys2Proof.core.run n s = .next t ∧ Inv t

end Sys2Proof.Safety
end

