-- ==== Sys2Proof/WellFormed.lean ====
section
/-! DEFINITION. The operand checks that depend on the word alone: the ranges of rule R74 (steps 4 of rule R78) and the
write protection of slots 4 to 7 (step 5 of rule R78, rule R56). They are stated here apart from the meanings, which make the
same checks in the order of rule R308. -/
namespace Sys2Proof

/-- A slot operand names a table that exists (rule R74: 0..7). -/
def slotExists (n : SlotNum) : Bool := n.toNat < 8

/-- A destination slot is one of the writable ones (rules R74, R304: 0..3). -/
def slotWritable (n : SlotNum) : Bool := n.toNat < 4

/-- Every operand is inside the range rule R74 gives it. -/
def Instr.inRange : Instr → Bool
  | .nop => true
  | .ldi _ _ => true
  | .mov _ _ => true
  | .rdx _ => true
  | .rdq => true
  | .rdsr => true
  | .rdec => true
  | .rdew => true
  | .clrf => true
  | .bwi idx _ => decide (idx.toNat < 16)
  | .brd idx => decide (idx.toNat < 16)
  | .bst _ idx => decide (idx.toNat < 16)
  | .bld _ idx => decide (idx.toNat < 16)
  | .kwi idx _ => decide (idx.toNat < 16)
  | .krd idx => decide (idx.toNat < 16)
  | .rkrd rnd idx => decide (rnd.toNat < 11) && decide (idx.toNat < 16)
  | .mwi idx _ => decide (idx.toNat < 8)
  | .mrd idx => decide (idx.toNat < 8)
  | .cwi _ => true
  | .crd => true
  | .twi td _ _ => slotExists td
  | .trd ts _ => slotExists ts
  | .tld _ ts _ => slotExists ts
  | .tst td _ _ => slotExists td
  | .tcpy td ts => slotExists td && slotExists ts
  | .wrd _ => true
  | .gfmul _ _ _ => true
  | .gfinv _ _ => true
  | .xor _ _ _ => true
  | .sbgen td => slotExists td
  | .sbchk ts => slotExists ts
  | .sbinv td ts => slotExists td && slotExists ts
  | .sbinvl td ts => slotExists td && slotExists ts
  | .mpre p => decide (p.toNat < 2)
  | .subb ts => slotExists ts
  | .shrow => true
  | .ishrow => true
  | .mixc => true
  | .imixc => true
  | .addrk rnd => decide (rnd.toNat < 11)
  | .keyexp => true
  | .encb ts => slotExists ts
  | .decb ts => slotExists ts
  | .wload ts _ => slotExists ts
  | .fwht => true
  | .wmax => true
  | .nl ts => slotExists ts
  | .sac ts => slotExists ts
  | .lap ts => slotExists ts
  | .dap ts => slotExists ts
  | .du ts => slotExists ts
  | .ad ts => slotExists ts
  | .bic ts => slotExists ts
  | .fixp ts => slotExists ts

/-- The destination slot of a command that writes a table (rule R304's list: TWI TST TCPY SBGEN SBINV SBINVL). -/
def Instr.destSlot? : Instr → Option SlotNum
  | .nop => none
  | .ldi _ _ => none
  | .mov _ _ => none
  | .rdx _ => none
  | .rdq => none
  | .rdsr => none
  | .rdec => none
  | .rdew => none
  | .clrf => none
  | .bwi _ _ => none
  | .brd _ => none
  | .bst _ _ => none
  | .bld _ _ => none
  | .kwi _ _ => none
  | .krd _ => none
  | .rkrd _ _ => none
  | .mwi _ _ => none
  | .mrd _ => none
  | .cwi _ => none
  | .crd => none
  | .twi td _ _ => some td
  | .trd _ _ => none
  | .tld _ _ _ => none
  | .tst td _ _ => some td
  | .tcpy td _ => some td
  | .wrd _ => none
  | .gfmul _ _ _ => none
  | .gfinv _ _ => none
  | .xor _ _ _ => none
  | .sbgen td => some td
  | .sbchk _ => none
  | .sbinv td _ => some td
  | .sbinvl td _ => some td
  | .mpre _ => none
  | .subb _ => none
  | .shrow => none
  | .ishrow => none
  | .mixc => none
  | .imixc => none
  | .addrk _ => none
  | .keyexp => none
  | .encb _ => none
  | .decb _ => none
  | .wload _ _ => none
  | .fwht => none
  | .wmax => none
  | .nl _ => none
  | .sac _ => none
  | .lap _ => none
  | .dap _ => none
  | .du _ => none
  | .ad _ => none
  | .bic _ => none
  | .fixp _ => none

/-- A command that writes a table writes a writable one (rule R78 step 5). -/
def Instr.destWritable (i : Instr) : Bool :=
  match i.destSlot? with
  | none => true
  | some td => slotWritable td

/-- Every word of a host procedure is well formed in this sense (rule R274): in range, destination writable. -/
def Instr.wellFormed (i : Instr) : Bool := i.inRange && i.destWritable

end Sys2Proof
end

