-- ==== Sys2Proof/Certificates/Slice0/Obligations.lean ====
section
/-! DEFINITION. The statements for the provers, from the numbered rules of spec/. A command's statement gives its word, says
that it completes and in which state, element by element, and that everything else is unchanged (the last clause, an equation
of whole states), and says where it faults. -/
namespace Sys2Proof.Statements

open Sys2Proof.Machine

/-- The responses after one more response `(0x00, v)`. -/
def answered (s : State) (v : Nat) : List Response := s.responses ++ [⟨0, BitVec.ofNat 32 v⟩]

/-- The command goes on with fault code `k` recorded and nothing else changed (rule R305). -/
def FaultsWith (i : Instr) (s : State) (k : Byte) : Prop :=
  exec i s = .next { s with ec := k, ew := encode i, responses := s.responses ++ [⟨k, 0⟩] }

/-- The command changes nothing and responds with `(0x00, v)`. -/
def OnlyResponds (i : Instr) (s : State) (v : Nat) : Prop := exec i s = .next { s with responses := answered s v }

/-- A command that writes one register: `x[rd] <- v`, nothing else. -/
def WritesRegister (i : Instr) (s : State) (rd : RegNum) (v : Byte) : Prop :=
  ∃ t, exec i s = .next t ∧ (∀ r, t.reg r = if r = rd then v else s.reg r) ∧
    t = { s with x := t.x, responses := answered s 0 }

/-- A command that writes `BLK` byte by byte, and nothing else. -/
def WritesBlock (i : Instr) (s : State) (f : Fin 16 → Byte) : Prop :=
  ∃ t, exec i s = .next t ∧ (∀ j : Fin 16, t.blk[j] = f j) ∧ t = { s with blk := t.blk, responses := answered s 0 }

/-- A command that writes table slot `d` entry by entry, and nothing else. -/
def WritesTable (i : Instr) (s : State) (d : Fin 4) (P : Table → Prop) : Prop :=
  ∃ t, exec i s = .next t ∧ P t.tbl[d] ∧ (∀ e : Fin 4, e ≠ d → t.tbl[e] = s.tbl[e]) ∧
    t = { s with tbl := t.tbl, responses := answered s 0 }

/-- A metric command: an integer with property `P` goes to `q` and into the response, nothing else changes (rules R220,
R249). -/
def WritesQ (i : Instr) (s : State) (P : Nat → Prop) : Prop :=
  ∃ t, exec i s = .next t ∧ P t.q.toNat ∧ t = { s with q := t.q, responses := answered s t.q.toNat }

/-- Running `is` from `s`, one command after another, ends in a state with property `P`. -/
def RunsTo (is : List Instr) (s : State) (P : State → Prop) : Prop :=
  ∃ t, Sys2Proof.core.run is.length ({ s with cmds := is.map encode } : State) = .next t ∧ P t

/-- The largest of a family of naturals. -/
def IsMax {α : Type} (D : α → Prop) (f : α → Nat) (m : Nat) : Prop := (∀ a, D a → f a ≤ m) ∧ ∃ a, D a ∧ f a = m

/-- The table is a permutation of 0..255 (rule R170). -/
def Permutation (t : Table) : Prop := Function.Bijective (entry t)

/-- The polynomial over GF(2) a byte stands for (rule R140). -/
noncomputable def poly (b : Byte) : Polynomial (ZMod 2) :=
  ∑ k ∈ Finset.range 8, if b.getLsbD k then Polynomial.X ^ k else 0

/-- The reduction polynomial 0x11B (rule R140). -/
noncomputable def reduction : Polynomial (ZMod 2) :=
  Polynomial.X ^ 8 + Polynomial.X ^ 4 + Polynomial.X ^ 3 + Polynomial.X + 1

/-- The fault the rules give a command, in the order of rule R308. -/
def faultOf (i : Instr) (s : State) : Option Byte :=
  if !i.inRange then some 0x02
  else if !i.destWritable then some 0x03
  else
    match i with
    | .addrk _ | .encb _ | .decb _ => if rkvFlag s.sr then none else some 0x05
    | .sbinv _ ts =>
      match s.table? ts with
      | some t => if isBijection t then none else some 0x04
      | none => none
    | _ => none

/-- The commands ENCB stands for (rule R203). -/
def encryptCommands (ts : SlotNum) : List Instr :=
  Instr.addrk 0 :: ([1, 2, 3, 4, 5, 6, 7, 8, 9].flatMap fun n => [.subb ts, .shrow, .mixc, .addrk n]) ++
    [.subb ts, .shrow, .addrk 10]

/-- The commands DECB stands for (rule R205). -/
def decryptCommands (ts : SlotNum) : List Instr :=
  [Instr.addrk 10, .ishrow, .subb ts] ++
    ([9, 8, 7, 6, 5, 4, 3, 2, 1].flatMap fun n => [.addrk n, .imixc, .ishrow, .subb ts]) ++ [.addrk 0]

/-- `abs(G_b(a))` for the component function of mask `b` of a table (rules R221, R223). -/
def magnitude (t : Table) (b a : Byte) : Nat := (spectrumAt (component t b) a).natAbs

/-- The number of inputs with input difference `dx` and output difference `dy` (rule R234). -/
def diffCount (t : Table) (dx dy : Byte) : Nat := allBytes.countP fun x => entry t x ^^^ entry t (x ^^^ dx) == dy

end Sys2Proof.Statements

open Sys2Proof Sys2Proof.Machine Sys2Proof.Statements

/-! ### Reset, the port, decoding -/

/-- Rule R40, row by row. -/
def Obligations.ResetStateIsTheResetTable : Prop :=
  (∀ r, State.reset.reg r = 0) ∧ State.reset.q = 0 ∧
  State.reset.sr = 0 ∧ bijFlag State.reset.sr = false ∧ rkvFlag State.reset.sr = false ∧
  State.reset.ec = 0 ∧ State.reset.ew = 0 ∧
  (∀ i : Fin 16, State.reset.blk[i] = 0) ∧ (∀ i : Fin 16, State.reset.key[i] = 0) ∧
  (∀ (r : Fin 11) (i : Fin 16), State.reset.rk[r][i] = 0) ∧
  (∀ i : Fin 8, State.reset.mat[i] = 0) ∧ State.reset.cst = 0 ∧
  (∀ (d : Fin 4) (v : Byte), entry State.reset.tbl[d] v = 0) ∧
  State.reset.table? 4 = some Config.aesSbox ∧ State.reset.table? 5 = some Config.aesInv ∧
  State.reset.table? 6 = some Config.k44Sbox ∧ State.reset.table? 7 = some Config.k44Inv ∧
  preset 0 = ⟨#v[0xF8, 0x7C, 0x3E, 0x1F, 0x8F, 0xC7, 0xE3, 0xF1], 0x63⟩ ∧ preset 1 = Config.k44Preset ∧
  (∀ a, entry State.reset.w a = 0)

/-- A step takes the next word in issue order and runs the command it decodes to, or raises IllegalCommand; with no word the
unit holds its state (rules R17, R78, R302, R319). The queue of words and its use by a step are the model's (log entry 1). -/
def Obligations.StepRunsTheDecodedCommand : Prop :=
  ∀ s : State,
    (s.cmds = [] → step s = .next s) ∧
    ∀ c rest, s.cmds = c :: rest →
      (∀ i, decode c = .ok i → step s = exec i { s with cmds := rest }) ∧
      (∀ e, decode c = .error e →
        step s = .next { s with cmds := rest, ec := 1, ew := c, responses := s.responses ++ [⟨1, 0⟩] })

/-- Rules R76, R302: a word that matches no row of the opcode map raises IllegalCommand and does nothing else. -/
def Obligations.WordOfNoRowIsIllegal : Prop :=
  ∀ (c : Word) (rest : List Word) (s : State), s.cmds = c :: rest →
    (¬ ∃ m : Mnemonic, c &&& m.format.mask = m.matchWord) →
    step s = .next { s with cmds := rest, ec := 1, ew := c, responses := s.responses ++ [⟨1, 0⟩] }

/-- Rule R72: "A word encodes command M exactly when c & mask(M) = match(M)"; so no word encodes two commands. -/
def Obligations.WordEncodesExactlyItsRow : Prop :=
  ∀ (c : Word) (m : Mnemonic), (c &&& m.format.mask = m.matchWord ↔ ∃ i, decode c = .ok i ∧ i.mnemonic = m)

/-- Decoding the word of any command, with every operand at every value its field admits, gives the command back. -/
def Obligations.DecodeEncodeRoundTrip : Prop := ∀ i : Instr, decode (encode i) = .ok i

/-- No bit of a decodable word is ignored: it is the word of the command it decodes to. -/
def Obligations.EncodeDecodeRoundTrip : Prop := ∀ (c : Word) (i : Instr), decode c = .ok i → encode i = c

/-- Words written out in the spec's examples decode to the commands they stand for. -/
def Obligations.WrittenWordsDecode : Prop :=
  decode 0x00000000 = .ok .nop ∧ decode 0x01100057 = .ok (.ldi 1 0x57) ∧ decode 0x12400300 = .ok (.bst 4 3) ∧
  decode 0x16A00F00 = .ok (.rkrd 10 15) ∧ decode 0x200053ED = .ok (.twi 0 0x53 0xED) ∧
  decode 0x22453000 = .ok (.tld 4 5 3) ∧ decode 0x42140000 = .ok (.sbinv 1 4) ∧ decode 0x5500000A = .ok (.addrk 10) ∧
  decode 0x60040001 = .ok (.wload 4 1) ∧ decode 0x09000000 = .error .unassignedOpcode ∧
  decode 0x00000001 = .error .mustBeZeroBitSet

/-! ### Invariants and the whole machine -/

/-- Every step keeps `SR[7:2]` zero (rule R23) and the fault record and the responses legal (rules R25, R301, R305). -/
def Obligations.StepKeepsStatusAndFaultRecordLegal : Prop :=
  ∀ s t : State, step s = .next t →
    (Safety.StatusBitsZero s → Safety.StatusBitsZero t) ∧ (Safety.FaultRecordLegal s → Safety.FaultRecordLegal t) ∧
    (Safety.ResponsesLegal s → Safety.ResponsesLegal t)

/-- Rule R41: every step keeps "when RKV = 1, RK = key_expansion(KEY)". -/
def Obligations.StepKeepsRoundKeysFresh : Prop :=
  ∀ s t : State, Safety.RoundKeysFresh s → step s = .next t → Safety.RoundKeysFresh t

/-- Every step keeps all the invariants together, that of rule R24 (no command writes more than 32768 to `q`) among them. -/
def Obligations.StepKeepsEveryInvariant : Prop :=
  ∀ s t : State, Safety.Inv s → step s = .next t → Safety.Inv t

/-- Whatever words the host issues from reset, every step of the run goes on and every invariant holds in it (rules R311,
R343). -/
def Obligations.EveryRunFromResetIsSafe : Prop := ∀ ws : List Word, Safety.SafeRun (State.reset.withCmds ws)

/-- The reset state meets every invariant. -/
def Obligations.ResetMeetsTheInvariants : Prop := Safety.Inv State.reset

/-- Rules R338, R343: every accepted word, legal or not, is executed to the end in one step and given exactly one response.
That a word runs in one step, and the list of responses, are the model's (log entries 1 and 2). -/
def Obligations.EveryWordGetsExactlyOneResponse : Prop :=
  ∀ (s : State) (c : Word) (rest : List Word), s.cmds = c :: rest →
    ∃ t r, step s = .next t ∧ t.cmds = rest ∧ t.responses = s.responses ++ [r]

/-- The responses of a run match its words one for one (rules R17, R338; the lists are the model's, log entries 1 and 2). -/
def Obligations.RunAnswersEveryWord : Prop :=
  ∀ s : State, ∃ t, Sys2Proof.core.run s.cmds.length s = .next t ∧ t.cmds = [] ∧
    ∃ rs : List Response, t.responses = s.responses ++ rs ∧ rs.length = s.cmds.length

/-- Rules R17, R338, R341: whatever the host does at the ports and however long each command takes, without `rst` the words
accepted and the responses taken match one for one but for at most one outstanding, the responses are those of the run over
the accepted words, and the state is the one that run leaves; and an edge with `rst` leaves the reset state (rule R330). The
form of the ports is the model's (log entry 17). -/
def Obligations.HandshakeAnswersEachAcceptedWordOnce : Prop :=
  (∀ (ins : List PortInputs) (s : State), (∀ i ∈ ins, i.rst = false) →
    ∃ (u : Chip) (ws : List Word) (rs : List Response), Chip.clockAll ins ⟨s, .ready⟩ = (u, ws, rs) ∧
      match u.phase with
      | .ready => transactAll ws s = (u.state, rs)
      | .running c => ∃ vs, ws = vs ++ [c] ∧ transactAll vs s = (u.state, rs)
      | .responding r => transactAll ws s = (u.state, rs ++ [r])) ∧
  ∀ (u : Chip) (i : PortInputs), i.rst = true →
    u.clock i = ⟨State.reset, .ready⟩ ∧ u.accepted? i = none ∧ u.taken? i = none

/-- Which fault a command raises, if any, in the order of rules R78 and R308, for every command and every state; a command
that raises none responds with status 0 and leaves the fault record alone, CLRF apart (rule R25). -/
def Obligations.CommandFaultsExactlyAsTheRulesSay : Prop :=
  ∀ (i : Instr) (s : State),
    match faultOf i s with
    | some k => FaultsWith i s k
    | none => ∃ t v, exec i s = .next t ∧ t.responses = s.responses ++ [⟨0, v⟩] ∧
        (i ≠ .clrf → t.ec = s.ec ∧ t.ew = s.ew)

/-- Rules R305, R320: a step whose response has a non-zero status has recorded that status and the word, and changed nothing
else. -/
def Obligations.FaultChangesOnlyTheRecord : Prop :=
  ∀ (s t : State) (c : Word) (rest : List Word) (r : Response),
    s.cmds = c :: rest → step s = .next t → t.responses = s.responses ++ [r] → r.status ≠ 0 →
    t = { s with cmds := rest, ec := r.status, ew := c, responses := s.responses ++ [⟨r.status, 0⟩] }

/-! ### Data movement -/

/-- Rules R101, R109. -/
def Obligations.NopRespondsAndClrfClearsTheRecord : Prop :=
  ∀ s : State,
    (encode .nop = 0 ∧ OnlyResponds .nop s 0) ∧
    ((encode .clrf).toNat = 0x08000000 ∧
      exec .clrf s = .next { s with ec := 0, ew := 0, responses := answered s 0 })

/-- Rules R102, R103. -/
def Obligations.LdiAndMovWriteOneRegister : Prop :=
  ∀ (rd ra : RegNum) (imm8 : Byte) (s : State),
    ((encode (.ldi rd imm8)).toNat = 0x01000000 + rd.toNat * 0x100000 + imm8.toNat ∧
      WritesRegister (.ldi rd imm8) s rd imm8) ∧
    ((encode (.mov rd ra)).toNat = 0x02000000 + rd.toNat * 0x100000 + ra.toNat * 0x10000 ∧
      WritesRegister (.mov rd ra) s rd (s.reg ra))

/-- Rules R104 to R108. -/
def Obligations.ReadCommandsOnlyRespond : Prop :=
  ∀ (ra : RegNum) (s : State),
    ((encode (.rdx ra)).toNat = 0x03000000 + ra.toNat * 0x100000 ∧ OnlyResponds (.rdx ra) s (s.reg ra).toNat) ∧
    ((encode .rdq).toNat = 0x04000000 ∧ OnlyResponds .rdq s s.q.toNat) ∧
    ((encode .rdsr).toNat = 0x05000000 ∧
      OnlyResponds .rdsr s ((s.sr.getLsbD 0).toNat + 2 * (s.sr.getLsbD 1).toNat)) ∧
    ((encode .rdec).toNat = 0x06000000 ∧ OnlyResponds .rdec s s.ec.toNat) ∧
    ((encode .rdew).toNat = 0x07000000 ∧ OnlyResponds .rdew s s.ew.toNat)

/-- Rules R110 to R113. -/
def Obligations.BlockMovesTouchOneByte : Prop :=
  ∀ (rd ra : RegNum) (idx imm8 : Byte) (s : State),
    (encode (.bwi idx imm8)).toNat = 0x10000000 + idx.toNat * 0x100 + imm8.toNat ∧
    (encode (.brd idx)).toNat = 0x11000000 + idx.toNat * 0x100 ∧
    (encode (.bst ra idx)).toNat = 0x12000000 + ra.toNat * 0x100000 + idx.toNat * 0x100 ∧
    (encode (.bld rd idx)).toNat = 0x13000000 + rd.toNat * 0x100000 + idx.toNat * 0x100 ∧
    (∀ i : Fin 16, idx.toNat = i.val →
      WritesBlock (.bwi idx imm8) s (fun j => if j = i then imm8 else s.blk[j]) ∧
      OnlyResponds (.brd idx) s s.blk[i].toNat ∧
      WritesBlock (.bst ra idx) s (fun j => if j = i then s.reg ra else s.blk[j]) ∧
      WritesRegister (.bld rd idx) s rd s.blk[i]) ∧
    (15 < idx.toNat →
      FaultsWith (.bwi idx imm8) s 2 ∧ FaultsWith (.brd idx) s 2 ∧ FaultsWith (.bst ra idx) s 2 ∧
      FaultsWith (.bld rd idx) s 2)

/-- Rules R114 to R116: a KWI clears RKV, whatever the value; RKRD does not test it. -/
def Obligations.KeyMovesGuardTheRoundKeys : Prop :=
  ∀ (idx imm8 : Byte) (rnd : BitVec 4) (s : State),
    (encode (.kwi idx imm8)).toNat = 0x14000000 + idx.toNat * 0x100 + imm8.toNat ∧
    (encode (.krd idx)).toNat = 0x15000000 + idx.toNat * 0x100 ∧
    (encode (.rkrd rnd idx)).toNat = 0x16000000 + rnd.toNat * 0x100000 + idx.toNat * 0x100 ∧
    (∀ i : Fin 16, idx.toNat = i.val →
      (∃ t, exec (.kwi idx imm8) s = .next t ∧ (∀ j : Fin 16, t.key[j] = if j = i then imm8 else s.key[j]) ∧
        rkvFlag t.sr = false ∧ (∀ k, k ≠ 1 → t.sr.getLsbD k = s.sr.getLsbD k) ∧
        t = { s with key := t.key, sr := t.sr, responses := answered s 0 }) ∧
      OnlyResponds (.krd idx) s s.key[i].toNat ∧
      (∀ r : Fin 11, rnd.toNat = r.val → OnlyResponds (.rkrd rnd idx) s s.rk[r][i].toNat)) ∧
    (15 < idx.toNat → FaultsWith (.kwi idx imm8) s 2 ∧ FaultsWith (.krd idx) s 2) ∧
    (15 < idx.toNat ∨ 10 < rnd.toNat → FaultsWith (.rkrd rnd idx) s 2)

/-- Rules R117 to R120. -/
def Obligations.MatrixMovesTouchOneRow : Prop :=
  ∀ (idx imm8 : Byte) (s : State),
    (encode (.mwi idx imm8)).toNat = 0x18000000 + idx.toNat * 0x100 + imm8.toNat ∧
    (encode (.mrd idx)).toNat = 0x19000000 + idx.toNat * 0x100 ∧
    (encode (.cwi imm8)).toNat = 0x1A000000 + imm8.toNat ∧ (encode .crd).toNat = 0x1B000000 ∧
    (∀ i : Fin 8, idx.toNat = i.val →
      (∃ t, exec (.mwi idx imm8) s = .next t ∧ (∀ j : Fin 8, t.mat[j] = if j = i then imm8 else s.mat[j]) ∧
        t = { s with mat := t.mat, responses := answered s 0 }) ∧
      OnlyResponds (.mrd idx) s s.mat[i].toNat) ∧
    (7 < idx.toNat → FaultsWith (.mwi idx imm8) s 2 ∧ FaultsWith (.mrd idx) s 2) ∧
    exec (.cwi imm8) s = .next { s with cst := imm8, responses := answered s 0 } ∧
    OnlyResponds .crd s s.cst.toNat

/-- Rules R30, R31, R73, R74: which table a slot operand names, and rules R35, R36, R168: which preset MPRE loads. -/
def Obligations.SlotsAndPresetsNameTheirTables : Prop :=
  ∀ (s : State) (n : SlotNum) (p : Byte),
    (∀ d : Fin 4, n.toNat = d.val → s.table? n = some s.tbl[d]) ∧
    (n.toNat = 4 → s.table? n = some Config.aesSbox) ∧ (n.toNat = 5 → s.table? n = some Config.aesInv) ∧
    (n.toNat = 6 → s.table? n = some Config.k44Sbox) ∧ (n.toNat = 7 → s.table? n = some Config.k44Inv) ∧
    (7 < n.toNat → s.table? n = none) ∧
    (encode (.mpre p)).toNat = 0x44000000 + p.toNat ∧
    (p.toNat = 0 → exec (.mpre p) s = .next { s with
      mat := #v[0xF8, 0x7C, 0x3E, 0x1F, 0x8F, 0xC7, 0xE3, 0xF1], cst := 0x63, responses := answered s 0 }) ∧
    (p.toNat = 1 → exec (.mpre p) s = .next { s with
      mat := Config.k44Preset.mat, cst := Config.k44Preset.cst, responses := answered s 0 }) ∧
    (1 < p.toNat → FaultsWith (.mpre p) s 2)

/-- Rules R121 to R125. -/
def Obligations.TableMovesTouchOneTable : Prop :=
  ∀ (td ts : SlotNum) (rd ra rb : RegNum) (idx imm8 : Byte) (s : State),
    (encode (.twi td idx imm8)).toNat = 0x20000000 + td.toNat * 0x100000 + idx.toNat * 0x100 + imm8.toNat ∧
    (encode (.trd ts idx)).toNat = 0x21000000 + ts.toNat * 0x100000 + idx.toNat * 0x100 ∧
    (encode (.tld rd ts ra)).toNat = 0x22000000 + rd.toNat * 0x100000 + ts.toNat * 0x10000 + ra.toNat * 0x1000 ∧
    (encode (.tst td ra rb)).toNat = 0x23000000 + td.toNat * 0x100000 + ra.toNat * 0x10000 + rb.toNat * 0x1000 ∧
    (encode (.tcpy td ts)).toNat = 0x24000000 + td.toNat * 0x100000 + ts.toNat * 0x10000 ∧
    (∀ d : Fin 4, td.toNat = d.val →
      WritesTable (.twi td idx imm8) s d (fun u => ∀ v, entry u v = if v = idx then imm8 else entry s.tbl[d] v) ∧
      WritesTable (.tst td ra rb) s d (fun u => ∀ v, entry u v = if v = s.reg ra then s.reg rb else entry s.tbl[d] v) ∧
      (∀ t, s.table? ts = some t → WritesTable (.tcpy td ts) s d (fun u => ∀ v, entry u v = entry t v))) ∧
    (∀ t, s.table? ts = some t →
      OnlyResponds (.trd ts idx) s (entry t idx).toNat ∧ WritesRegister (.tld rd ts ra) s rd (entry t (s.reg ra))) ∧
    (7 < td.toNat → FaultsWith (.twi td idx imm8) s 2 ∧ FaultsWith (.tst td ra rb) s 2) ∧
    (7 < ts.toNat → FaultsWith (.trd ts idx) s 2 ∧ FaultsWith (.tld rd ts ra) s 2) ∧
    (7 < td.toNat ∨ 7 < ts.toNat → FaultsWith (.tcpy td ts) s 2) ∧
    (4 ≤ td.toNat ∧ td.toNat ≤ 7 → FaultsWith (.twi td idx imm8) s 3 ∧ FaultsWith (.tst td ra rb) s 3) ∧
    (4 ≤ td.toNat ∧ td.toNat ≤ 7 ∧ ts.toNat ≤ 7 → FaultsWith (.tcpy td ts) s 3)

/-- Rules R126, R226: WRD responds with one element of `W`, sign-extended to 32 bits; WMAX takes the largest magnitude of all
256 elements. -/
def Obligations.WrdAndWmaxReadTheWalshArray : Prop :=
  ∀ (idx : Byte) (s : State),
    (encode (.wrd idx)).toNat = 0x28000000 + idx.toNat * 0x100 ∧ (encode .wmax).toNat = 0x62000000 ∧
    (∃ v : Word, v.toInt = (entry s.w idx).toInt ∧
      exec (.wrd idx) s = .next { s with responses := s.responses ++ [⟨0, v⟩] }) ∧
    WritesQ .wmax s (IsMax (fun _ : Byte => True) fun a => (entry s.w a).toInt.natAbs)

/-! ### GF(2^8) -/

/-- Rules R142, R144, R145, their corner cases last. -/
def Obligations.GfCommandsWriteOneRegister : Prop :=
  ∀ (rd ra rb : RegNum) (s : State),
    (encode (.gfmul rd ra rb)).toNat = 0x30000000 + rd.toNat * 0x100000 + ra.toNat * 0x10000 + rb.toNat * 0x1000 ∧
    (encode (.gfinv rd ra)).toNat = 0x31000000 + rd.toNat * 0x100000 + ra.toNat * 0x10000 ∧
    (encode (.xor rd ra rb)).toNat = 0x32000000 + rd.toNat * 0x100000 + ra.toNat * 0x10000 + rb.toNat * 0x1000 ∧
    WritesRegister (.gfmul rd ra rb) s rd (gfMul (s.reg ra) (s.reg rb)) ∧
    WritesRegister (.gfinv rd ra) s rd (gfInv (s.reg ra)) ∧
    WritesRegister (.xor rd ra rb) s rd (s.reg ra ^^^ s.reg rb) ∧
    (∀ b, gfMul 0 b = 0 ∧ gfMul b 0 = 0 ∧ gfMul 1 b = b ∧ gfInv (gfInv b) = b) ∧ gfMul 0x80 0x02 = 0x1B ∧ gfInv 1 = 1

/-- Rules R140, R141: "The result is the product of the two polynomials reduced modulo 0x11B". -/
def Obligations.GfMulIsThePolynomialProduct : Prop :=
  ∀ a b : Byte, reduction ∣ poly a * poly b - poly (gfMul a b)

/-- Rule R146. -/
def Obligations.GfMulCommutesAndInverseInverts : Prop :=
  (∀ a b, gfMul a b = gfMul b a) ∧ (∀ a, a ≠ 0 → gfMul a (gfInv a) = 1) ∧ gfInv 0 = 0

/-- `gf_mul` is associative, distributes over `^` and has the unit 1, and a byte has at most one inverse, `gf_inv` of it (rules
R140, R143). That it commutes and that the inverse exists is `GfMulCommutesAndInverseInverts`. -/
def Obligations.GfMulAssociatesDistributesHasUnitAndAtMostOneInverse : Prop :=
  (∀ a b c, gfMul a (gfMul b c) = gfMul (gfMul a b) c) ∧ (∀ a b c, gfMul a (b ^^^ c) = gfMul a b ^^^ gfMul a c) ∧
  (∀ a, gfMul a 1 = a) ∧ ∀ a b, gfMul a b = 1 → b = gfInv a

/-! ### S-box generator and checker -/

/-- Rules R161, R162: bit `7 - r` of entry `v` is the parity of row `r` and the inverse of `v`, plus the constant's bit. -/
def Obligations.SbgenBuildsTheAffineTable : Prop :=
  ∀ (td : SlotNum) (s : State),
    (encode (.sbgen td)).toNat = 0x40000000 + td.toNat * 0x100000 ∧
    (∀ d : Fin 4, td.toNat = d.val →
      WritesTable (.sbgen td) s d (fun u => ∀ (v : Byte) (r : Fin 8),
        (entry u v).getLsbD (7 - r.val) = (parity (s.mat[r] &&& gfInv v) ^^ s.cst.getLsbD (7 - r.val)))) ∧
    (7 < td.toNat → FaultsWith (.sbgen td) s 2) ∧ (4 ≤ td.toNat ∧ td.toNat ≤ 7 → FaultsWith (.sbgen td) s 3)

/-- Rules R164, R170: BIJ and the response are 1 exactly when the table is a permutation of 0..255; slots 4 and 5 hold one,
a slot fresh from reset does not. -/
def Obligations.SbchkDecidesBijectivity : Prop :=
  ∀ (ts : SlotNum) (s : State),
    (encode (.sbchk ts)).toNat = 0x41000000 + ts.toNat * 0x10000 ∧
    (∀ t, s.table? ts = some t →
      ∃ (b : Bool) (u : State), (b = true ↔ Permutation t) ∧ exec (.sbchk ts) s = .next u ∧
        bijFlag u.sr = b ∧ (∀ k, k ≠ 0 → u.sr.getLsbD k = s.sr.getLsbD k) ∧
        u = { s with sr := u.sr, responses := answered s b.toNat }) ∧
    (7 < ts.toNat → FaultsWith (.sbchk ts) s 2) ∧
    Permutation Config.aesSbox ∧ Permutation Config.aesInv ∧ ∀ d : Fin 4, ¬ Permutation State.reset.tbl[d]

/-- Rules R165, R166: a permutation is inverted; any other table raises NonBijectiveSBox and the destination is kept. -/
def Obligations.SbinvInvertsExactlyPermutations : Prop :=
  ∀ (td ts : SlotNum) (s : State),
    (encode (.sbinv td ts)).toNat = 0x42000000 + td.toNat * 0x100000 + ts.toNat * 0x10000 ∧
    (∀ (d : Fin 4) (t : Table), td.toNat = d.val → s.table? ts = some t →
      (Permutation t → WritesTable (.sbinv td ts) s d (fun u => ∀ x, entry u (entry t x) = x)) ∧
      (¬ Permutation t → FaultsWith (.sbinv td ts) s 4)) ∧
    (7 < td.toNat ∨ 7 < ts.toNat → FaultsWith (.sbinv td ts) s 2) ∧
    (4 ≤ td.toNat ∧ td.toNat ≤ 7 ∧ ts.toNat ≤ 7 → FaultsWith (.sbinv td ts) s 3)

/-- Rules R165, R167: an output value gets its largest input, a value no input maps to gets 0x00. -/
def Obligations.SbinvlLastWriteWins : Prop :=
  ∀ (td ts : SlotNum) (s : State),
    (encode (.sbinvl td ts)).toNat = 0x43000000 + td.toNat * 0x100000 + ts.toNat * 0x10000 ∧
    (∀ (d : Fin 4) (t : Table), td.toNat = d.val → s.table? ts = some t →
      WritesTable (.sbinvl td ts) s d (fun u => ∀ v,
        ((∃ x, entry t x = v) → entry t (entry u v) = v ∧ ∀ x, entry t x = v → x.toNat ≤ (entry u v).toNat) ∧
        ((¬ ∃ x, entry t x = v) → entry u v = 0))) ∧
    (7 < td.toNat ∨ 7 < ts.toNat → FaultsWith (.sbinvl td ts) s 2) ∧
    (4 ≤ td.toNat ∧ td.toNat ≤ 7 ∧ ts.toNat ≤ 7 → FaultsWith (.sbinvl td ts) s 3)

/-- Slot 5 undoes slot 4, and the AES preset generates slot 4 (rules R32, R33, R36). -/
def Obligations.AesTablesFitTogether : Prop :=
  (∀ v, entry Config.aesInv (entry Config.aesSbox v) = v) ∧
  fromAffine Config.aesPreset.mat Config.aesPreset.cst = Config.aesSbox

/-- The free K-44 parameter meets the hypotheses of rule R8, whatever its value: slot 6 is a bijection generated by its
preset with `sac` within 0.02 of 0.5, and slot 7 undoes it (rule R34). The form of the parameter is the model's (log entry
4). -/
def Obligations.K44ParameterMeetsItsHypotheses : Prop :=
  Permutation Config.k44Sbox ∧ fromAffine Config.k44Preset.mat Config.k44Preset.cst = Config.k44Sbox ∧
  (∀ v, entry Config.k44Inv (entry Config.k44Sbox v) = v) ∧
  7865 ≤ sacSum Config.k44Sbox ∧ sacSum Config.k44Sbox ≤ 8519

/-! ### Round functions and block engine -/

/-- Rule R181. -/
def Obligations.SubbSubstitutesEachByte : Prop :=
  ∀ (ts : SlotNum) (s : State),
    (encode (.subb ts)).toNat = 0x50000000 + ts.toNat * 0x10000 ∧
    (∀ t, s.table? ts = some t → WritesBlock (.subb ts) s (fun j => entry t s.blk[j])) ∧
    (7 < ts.toNat → FaultsWith (.subb ts) s 2)

/-- Rules R182, R183, with the source indices `P` and `Q` the rules print. -/
def Obligations.RowShiftsPermuteTheBlock : Prop :=
  ∀ s : State,
    (encode .shrow).toNat = 0x51000000 ∧ (encode .ishrow).toNat = 0x52000000 ∧
    WritesBlock .shrow s
      (fun j => s.blk[(![0, 5, 10, 15, 4, 9, 14, 3, 8, 13, 2, 7, 12, 1, 6, 11] : Fin 16 → Fin 16) j]) ∧
    WritesBlock .ishrow s
      (fun j => s.blk[(![0, 13, 10, 7, 4, 1, 14, 11, 8, 5, 2, 15, 12, 9, 6, 3] : Fin 16 → Fin 16) j])

/-- Rules R184, R185: each column is multiplied from the left by the matrix the rule prints. -/
def Obligations.MixColumnsMultipliesByItsMatrix : Prop :=
  ∀ s : State,
    (encode .mixc).toNat = 0x53000000 ∧ (encode .imixc).toNat = 0x54000000 ∧
    ∀ (i : Instr) (m : Fin 4 → Fin 4 → Byte),
      (i = .mixc ∧ m = ![![2, 3, 1, 1], ![1, 2, 3, 1], ![1, 1, 2, 3], ![3, 1, 1, 2]] ∨
        i = .imixc ∧ m = ![![14, 11, 13, 9], ![9, 14, 11, 13], ![13, 9, 14, 11], ![11, 13, 9, 14]]) →
      ∃ t, exec i s = .next t ∧ t = { s with blk := t.blk, responses := answered s 0 } ∧
        ∀ c r : Fin 4, t.blk[4 * c.val + r.val]'(by omega) =
          gfMul (m r 0) (s.blk[4 * c.val]'(by omega)) ^^^ gfMul (m r 1) (s.blk[4 * c.val + 1]'(by omega)) ^^^
          gfMul (m r 2) (s.blk[4 * c.val + 2]'(by omega)) ^^^ gfMul (m r 3) (s.blk[4 * c.val + 3]'(by omega))

/-- Rule R186. -/
def Obligations.AddrkXorsTheRoundKey : Prop :=
  ∀ (rnd : Byte) (s : State),
    (encode (.addrk rnd)).toNat = 0x55000000 + rnd.toNat ∧
    (∀ r : Fin 11, rnd.toNat = r.val →
      (rkvFlag s.sr = true → WritesBlock (.addrk rnd) s (fun j => s.blk[j] ^^^ s.rk[r][j])) ∧
      (rkvFlag s.sr = false → FaultsWith (.addrk rnd) s 5)) ∧
    (10 < rnd.toNat → FaultsWith (.addrk rnd) s 2)

/-- Rule R187: each stage, run as a command, is undone by its inverse. -/
def Obligations.RoundStagesUndoEachOther : Prop :=
  ∀ s : State,
    RunsTo [.shrow, .ishrow] s (fun t => t.blk = s.blk) ∧ RunsTo [.ishrow, .shrow] s (fun t => t.blk = s.blk) ∧
    RunsTo [.mixc, .imixc] s (fun t => t.blk = s.blk) ∧ RunsTo [.imixc, .mixc] s (fun t => t.blk = s.blk) ∧
    (∀ rnd : Byte, rnd.toNat ≤ 10 → rkvFlag s.sr = true →
      RunsTo [.addrk rnd, .addrk rnd] s (fun t => t.blk = s.blk)) ∧
    (∀ (ts tu : SlotNum) (t u : Table), s.table? ts = some t → s.table? tu = some u → (∀ x, entry u (entry t x) = x) →
      RunsTo [.subb ts, .subb tu] s (fun v => v.blk = s.blk))

/-- Rules R200, R201. -/
def Obligations.KeyexpFollowsTheFormula : Prop :=
  ∀ s : State,
    (encode .keyexp).toNat = 0x58000000 ∧
    ∃ t, exec .keyexp s = .next t ∧ (∀ j : Fin 16, t.rk[0][j] = s.key[j]) ∧
      (∀ (i : Fin 10) (j : Fin 16),
        t.rk[i.val + 1][j] = t.rk[i.val][j] ^^^ BitVec.ofNat 8 (((i.val + 1) * 17 + j.val) &&& 0xFF)) ∧
      rkvFlag t.sr = true ∧ (∀ k, k ≠ 1 → t.sr.getLsbD k = s.sr.getLsbD k) ∧
      t = { s with rk := t.rk, sr := t.sr, responses := answered s 0 }

/-- Rules R202, R203: ENCB is the sequence of 40 commands rule R203 prints, run as one; it writes `BLK` only. -/
def Obligations.EncbRunsTheFortyCommands : Prop :=
  ∀ (ts : SlotNum) (s : State),
    (encode (.encb ts)).toNat = 0x59000000 + ts.toNat * 0x10000 ∧ (encryptCommands ts).length = 40 ∧
    (ts.toNat ≤ 7 → rkvFlag s.sr = true →
      ∃ t, exec (.encb ts) s = .next t ∧ t = { s with blk := t.blk, responses := answered s 0 } ∧
        RunsTo (encryptCommands ts) s (fun u => u.blk = t.blk)) ∧
    (ts.toNat ≤ 7 → rkvFlag s.sr = false → FaultsWith (.encb ts) s 5) ∧ (7 < ts.toNat → FaultsWith (.encb ts) s 2)

/-- Rules R204, R205: DECB is the sequence of 40 commands rule R205 prints, run as one; it writes `BLK` only. -/
def Obligations.DecbRunsTheFortyCommands : Prop :=
  ∀ (ts : SlotNum) (s : State),
    (encode (.decb ts)).toNat = 0x5A000000 + ts.toNat * 0x10000 ∧ (decryptCommands ts).length = 40 ∧
    (ts.toNat ≤ 7 → rkvFlag s.sr = true →
      ∃ t, exec (.decb ts) s = .next t ∧ t = { s with blk := t.blk, responses := answered s 0 } ∧
        RunsTo (decryptCommands ts) s (fun u => u.blk = t.blk)) ∧
    (ts.toNat ≤ 7 → rkvFlag s.sr = false → FaultsWith (.decb ts) s 5) ∧ (7 < ts.toNat → FaultsWith (.decb ts) s 2)

/-- Rule R206: decrypting with the inverse table and the same round keys gives the block back. -/
def Obligations.DecbUndoesEncb : Prop :=
  ∀ (ts tu : SlotNum) (t u : Table) (s : State),
    s.table? ts = some t → s.table? tu = some u → Permutation t → u = invert t → rkvFlag s.sr = true →
    RunsTo [.encb ts, .decb tu] s (fun v => v.blk = s.blk)

/-! ### Walsh-Hadamard unit and metrics -/

/-- Rules R221, R222. -/
def Obligations.WloadWritesTheComponentFunction : Prop :=
  ∀ (ts : SlotNum) (mask : Byte) (s : State),
    (encode (.wload ts mask)).toNat = 0x60000000 + ts.toNat * 0x10000 + mask.toNat ∧
    (∀ t, s.table? ts = some t →
      ∃ u, exec (.wload ts mask) s = .next u ∧
        (∀ x, (entry u.w x).toInt = 1 - 2 * ((parity (entry t x &&& mask)).toNat : Int)) ∧
        u = { s with w := u.w, responses := answered s 0 }) ∧
    (7 < ts.toNat → FaultsWith (.wload ts mask) s 2)

/-- Rules R223 to R225: FWHT leaves the Walsh spectrum of the old contents, modulo 2^16. -/
def Obligations.FwhtComputesTheWalshSpectrum : Prop :=
  ∀ s : State,
    (encode .fwht).toNat = 0x61000000 ∧
    ∃ t, exec .fwht s = .next t ∧
      (∀ a, entry t.w a = BitVec.ofInt 16 ((allBytes.map fun x =>
        (entry s.w x).toInt * (if parity (a &&& x) then -1 else 1)).sum)) ∧
      t = { s with w := t.w, responses := answered s 0 }

/-- Rules R227, R228, R245: NL and BIC take the smallest of `(256 - max|G_b|) / 2` over their masks. -/
def Obligations.NlAndBicTakeTheSmallestDistance : Prop :=
  ∀ (ts : SlotNum) (s : State),
    (encode (.nl ts)).toNat = 0x68000000 + ts.toNat * 0x10000 ∧
    (encode (.bic ts)).toNat = 0x6E000000 + ts.toNat * 0x10000 ∧
    (∀ t, s.table? ts = some t →
      WritesQ (.nl ts) s (fun q =>
        (∀ b a, b ≠ 0 → 2 * q + magnitude t b a ≤ 256) ∧ ∃ b a, b ≠ 0 ∧ 2 * q + magnitude t b a = 256) ∧
      WritesQ (.bic ts) s (fun q =>
        (∀ (i j : Fin 8) (a : Byte), i < j → 2 * q + magnitude t ((1#8 <<< i.val) ||| (1#8 <<< j.val)) a ≤ 256) ∧
        ∃ (i j : Fin 8) (a : Byte), i < j ∧ 2 * q + magnitude t ((1#8 <<< i.val) ||| (1#8 <<< j.val)) a = 256)) ∧
    (7 < ts.toNat → FaultsWith (.nl ts) s 2 ∧ FaultsWith (.bic ts) s 2)

/-- Rules R230, R247: SAC counts the output bits that change over all inputs and one-bit flips, FIXP the fixed points. -/
def Obligations.SacAndFixpCount : Prop :=
  ∀ (ts : SlotNum) (s : State),
    (encode (.sac ts)).toNat = 0x69000000 + ts.toNat * 0x10000 ∧
    (encode (.fixp ts)).toNat = 0x6F000000 + ts.toNat * 0x10000 ∧
    (∀ t, s.table? ts = some t →
      WritesQ (.sac ts) s (fun q => q = (allBytes.flatMap fun x => (List.range 8).flatMap fun b =>
        (List.range 8).filter fun k => (entry t x ^^^ entry t (x ^^^ (1#8 <<< b))).getLsbD k).length) ∧
      WritesQ (.fixp ts) s (fun q => q = (allBytes.filter fun x => entry t x = x).length)) ∧
    (7 < ts.toNat → FaultsWith (.sac ts) s 2 ∧ FaultsWith (.fixp ts) s 2)

/-- Rules R232, R233: LAP takes the largest spectrum value, both masks non-zero, and the spectrum is the brute-force count. -/
def Obligations.LapTakesTheLargestBias : Prop :=
  ∀ (ts : SlotNum) (s : State),
    (encode (.lap ts)).toNat = 0x6A000000 + ts.toNat * 0x10000 ∧
    (∀ t, s.table? ts = some t →
      WritesQ (.lap ts) s (IsMax (fun p : Byte × Byte => p.1 ≠ 0 ∧ p.2 ≠ 0) fun p => magnitude t p.1 p.2) ∧
      ∀ a b : Byte, spectrumAt (component t b) a =
        2 * ((allBytes.countP fun x => parity (x &&& a) == parity (entry t x &&& b) : Nat) : Int) - 256) ∧
    (7 < ts.toNat → FaultsWith (.lap ts) s 2)

/-- Rules R234, R236: DAP and DU take the largest difference count over all non-zero input differences. -/
def Obligations.DapAndDuTakeTheLargestCount : Prop :=
  ∀ (ts : SlotNum) (s : State),
    (encode (.dap ts)).toNat = 0x6B000000 + ts.toNat * 0x10000 ∧
    (encode (.du ts)).toNat = 0x6C000000 + ts.toNat * 0x10000 ∧
    (∀ t, s.table? ts = some t →
      WritesQ (.dap ts) s (IsMax (fun p : Byte × Byte => p.1 ≠ 0) fun p => diffCount t p.1 p.2) ∧
      WritesQ (.du ts) s (IsMax (fun p : Byte × Byte => p.1 ≠ 0) fun p => diffCount t p.1 p.2)) ∧
    (7 < ts.toNat → FaultsWith (.dap ts) s 2 ∧ FaultsWith (.du ts) s 2)

/-- Rules R242, R243: AD takes the largest weight of a term of the algebraic normal forms of the eight output bits. -/
def Obligations.AdTakesTheLargestDegree : Prop :=
  ∀ (ts : SlotNum) (s : State),
    (encode (.ad ts)).toNat = 0x6D000000 + ts.toNat * 0x10000 ∧
    (∀ t, s.table? ts = some t →
      ∃ coeff : Fin 8 → Byte → Bool,
        (∀ (k : Fin 8) (x : Byte), (entry t x).getLsbD k.val =
          ((allBytes.countP fun j => coeff k j && (j &&& x == j)) % 2 == 1)) ∧
        WritesQ (.ad ts) s (fun q =>
          (∀ k j, coeff k j = true → hw j ≤ q) ∧ (q ≠ 0 → ∃ k j, coeff k j = true ∧ hw j = q))) ∧
    (7 < ts.toNat → FaultsWith (.ad ts) s 2)

/-- Rule R220, column "range of q". -/
def Obligations.MetricsStayInTheirRanges : Prop :=
  ∀ (ts : SlotNum) (s : State), ts.toNat ≤ 7 →
    WritesQ (.nl ts) s (· ≤ 128) ∧ WritesQ (.sac ts) s (· ≤ 16384) ∧ WritesQ (.lap ts) s (· ≤ 256) ∧
    WritesQ (.dap ts) s (fun q => 2 ≤ q ∧ q ≤ 256) ∧ WritesQ (.du ts) s (fun q => 2 ≤ q ∧ q ≤ 256) ∧
    WritesQ (.ad ts) s (· ≤ 8) ∧ WritesQ (.bic ts) s (· ≤ 128) ∧ WritesQ (.fixp ts) s (· ≤ 256) ∧
    WritesQ .wmax s (· ≤ 32768)

/-! ### Assembly and host service -/

/-- Rule R79: a command whose slots are `t0` to `t7` is read back from its assembly form. How numbers are printed is the
model's (log entry 16). -/
def Obligations.AssemblerReadsWhatIsWritten : Prop :=
  ∀ i : Instr, (∀ t, Operand.slot t ∈ operandsOf i → t.toNat < 8) → assembleLine (assemblyText i) = some [i]

/-- Rules R262, R263. -/
def Obligations.UnpadUndoesPad : Prop :=
  ∀ b : List Byte, unpad (pad b) = b ∧ (pad b).length = 16 * (b.length / 16 + 1)

/-- Rules R266, R267. The UTF-8 code is the standard one and a string is a list of characters (log entry 14). -/
def Obligations.HexAndUtf8RoundTrip : Prop :=
  (∀ b : List Byte, hexToBytes (bytesToHex b) = some b ∧ (bytesToHex b).length = 2 * b.length) ∧
  (∀ t : Text, bytesToString (stringToBytes t) = some t)

/-- Rule R276 (a) and (b): for every key, every plaintext, every table and every inverse of it, from any two states of the
unit, decryption undoes encryption, and the ciphertext is whole blocks. -/
def Obligations.DecryptDataUndoesEncryptData : Prop :=
  ∀ (b : List Byte) (key : Text) (ts tu : Fin 8) (t u : Table) (s r : State),
    s.table? (slotOf ts) = some t → r.table? (slotOf tu) = some u → (∀ x, entry u (entry t x) = x) →
    (decryptData (encryptData b key ts s).2 key tu r).2 = .ok b ∧
    (encryptData b key ts s).2.length = 16 * (b.length / 16 + 1)

/-- Rules R265, R267, R269: malformed input fails before any command and leaves the unit untouched. -/
def Obligations.MalformedCiphertextTouchesNothing : Prop :=
  (∀ (c : List Byte) (key : Text) (ts : Fin 8) (s : State), c.length % 16 ≠ 0 →
    decryptData c key ts s = (s, .error .malformedCiphertext)) ∧
  (∀ (h key : Text) (ts : Fin 8) (s : State), (h.length % 2 = 1 ∨ ∃ c ∈ h, hexValue c = none) →
    decrypt h key ts s = (s, .error .malformedCiphertext))

/-- Rules R163, R270, R271: the S-box procedures give what the commands compute, from any state of the unit. -/
def Obligations.SboxProceduresComputeTheirTables : Prop :=
  (∀ (sbox : Table) (s : State),
    (Permutation sbox → ∃ t inv, invertSBox sbox s = (t, .ok inv) ∧ ∀ x, entry inv (entry sbox x) = x) ∧
    (¬ Permutation sbox → ∃ t, invertSBox sbox s = (t, .error .nonBijectiveSBox))) ∧
  (∀ (m : Vector (Vector Bool 8) 8) (c : Byte) (s : State) (v : Byte) (r : Fin 8),
    (∀ k : Fin 8, (rowByte m[r]).getLsbD (7 - k.val) = m[r][k]) ∧
    (entry (generateSBoxFromAffine m c s).2 v).getLsbD (7 - r.val) =
      (parity (rowByte m[r] &&& gfInv v) ^^ c.getLsbD (7 - r.val)))

/-- Rule R272; the fractions are exact rationals (log entry 15). -/
def Obligations.StatisticsDivideTheMetrics : Prop :=
  ∀ (ts : Fin 8) (t : Table) (s : State), s.table? (slotOf ts) = some t →
    (computeStatistics ts s).2 =
      { nl := nonLinearity t, sac := (sacSum t : Rat) / 16384, lap := (lapMax t : Rat) / 512,
        dap := (dapMax t : Rat) / 256, du := diffUniformity t, ad := algebraicDegree t, bic := bitIndependence t,
        fixedPoints := fixedPoints t }
end

