-- ==== Sys2Proof/Laws/Bits.lean ====
section
/-! SUPPORT. The arrays of Machine/Bits.lean by their elements. -/
namespace Sys2Proof.Machine

@[simp] theorem getElem_tabulate {α : Type} {n : Nat} (f : Fin n → α) (i : Nat) (h : i < n) :
    (tabulate n f)[i] = f ⟨i, h⟩ := by
  simp [tabulate]

@[simp] theorem getElem_fin_tabulate {α : Type} {n : Nat} (f : Fin n → α) (i : Fin n) : (tabulate n f)[i] = f i :=
  getElem_tabulate f i.val i.isLt

@[simp] theorem entry_tabulateBytes {α : Type} (f : Byte → α) (v : Byte) : entry (tabulateBytes f) v = f v := by
  simp [entry, tabulateBytes, allBytes]

@[simp] theorem length_allBytes : allBytes.length = 256 := by simp [allBytes]

theorem mem_allBytes (v : Byte) : v ∈ allBytes := by
  simp only [allBytes, List.mem_map, List.mem_range]
  exact ⟨v.toNat, v.isLt, by simp⟩

theorem mem_nonzeroBytes {v : Byte} : v ∈ nonzeroBytes ↔ v ≠ 0 := by
  have h : allBytes = 0 :: nonzeroBytes := by decide +kernel
  have hn : (0 : Byte) ∉ nonzeroBytes := by decide +kernel
  have hv := mem_allBytes v
  rw [h, List.mem_cons] at hv
  exact ⟨fun hm e => hn (e ▸ hm), fun hz => hv.resolve_left hz⟩

/-- Reading a table after one entry is replaced. -/
theorem entry_setEntry {α : Type} (t : Vector α 256) (v u : Byte) (a : α) :
    entry (setEntry t v a) u = if u = v then a else entry t u := by
  unfold entry setEntry
  by_cases h : u = v
  · subst h; simp
  · have : v.toNat ≠ u.toNat := fun e => h (BitVec.eq_of_toNat_eq e.symm)
    simp [h, this]

@[simp] theorem entry_setEntry_self {α : Type} (t : Vector α 256) (v : Byte) (a : α) : entry (setEntry t v a) v = a := by
  simp [entry_setEntry]

/-- Two 256-element arrays are equal when every entry is. -/
theorem ext_entry {α : Type} {t u : Vector α 256} (h : ∀ v, entry t v = entry u v) : t = u := by
  apply Vector.ext
  intro i hi
  have := h (BitVec.ofNat 8 i)
  simpa [entry, Nat.mod_eq_of_lt hi] using this

/-- Two blocks are equal when every byte is. -/
theorem ext_block {b d : Block} (h : ∀ i : Fin 16, b[i] = d[i]) : b = d :=
  Vector.ext fun i hi => h ⟨i, hi⟩

end Sys2Proof.Machine
end

