-- ==== Sys2Proof/Laws/Encoding.lean ====
section
/-! SUPPORT. The bits and fields of an encoded command word (rule R71), once for the one layout all formats share. -/
namespace Sys2Proof

/-- The bits of a word laid out as in rule R71. -/
theorem getLsbD_layout (op : Byte) (a b : BitVec 4) (idx imm : Byte) (i : Nat) :
    (layout op a b idx imm).getLsbD i =
      if i < 8 then imm.getLsbD i else if i < 16 then idx.getLsbD (i - 8) else if i < 20 then b.getLsbD (i - 16)
      else if i < 24 then a.getLsbD (i - 20) else op.getLsbD (i - 24) := by
  change (op ++ a ++ b ++ idx ++ imm : BitVec (8 + 4 + 4 + 8 + 8)).getLsbD i = _
  rw [BitVec.getLsbD_append, BitVec.getLsbD_append, BitVec.getLsbD_append, BitVec.getLsbD_append]
  repeat' split
  all_goals first | rfl | (exfalso; omega)

/-- A word laid out as in rule R71, as a number. -/
theorem toNat_layout (op : Byte) (a b : BitVec 4) (idx imm : Byte) :
    (layout op a b idx imm).toNat =
      op.toNat * 2 ^ 24 + a.toNat * 2 ^ 20 + b.toNat * 2 ^ 16 + idx.toNat * 2 ^ 8 + imm.toNat := by
  have app : ∀ {n m : Nat} (x : BitVec n) (y : BitVec m), (x ++ y).toNat = x.toNat * 2 ^ m + y.toNat := by
    intro n m x y
    rw [BitVec.toNat_append, ← Nat.shiftLeft_add_eq_or_of_lt y.isLt, Nat.shiftLeft_eq]
  change (op ++ a ++ b ++ idx ++ imm : BitVec (8 + 4 + 4 + 8 + 8)).toNat = _
  rw [app, app, app, app]
  omega

@[simp] theorem fieldOp_layout (op : Byte) (a b : BitVec 4) (idx imm : Byte) : fieldOp (layout op a b idx imm) = op := by
  apply BitVec.eq_of_toNat_eq
  simp only [fieldOp, BitVec.extractLsb'_toNat, toNat_layout, Nat.shiftRight_eq_div_pow]
  omega

@[simp] theorem fieldA_layout (op : Byte) (a b : BitVec 4) (idx imm : Byte) : fieldA (layout op a b idx imm) = a := by
  apply BitVec.eq_of_toNat_eq
  simp only [fieldA, BitVec.extractLsb'_toNat, toNat_layout, Nat.shiftRight_eq_div_pow]
  omega

@[simp] theorem fieldB_layout (op : Byte) (a b : BitVec 4) (idx imm : Byte) : fieldB (layout op a b idx imm) = b := by
  apply BitVec.eq_of_toNat_eq
  simp only [fieldB, BitVec.extractLsb'_toNat, toNat_layout, Nat.shiftRight_eq_div_pow]
  omega

@[simp] theorem fieldIdx_layout (op : Byte) (a b : BitVec 4) (idx imm : Byte) :
    fieldIdx (layout op a b idx imm) = idx := by
  apply BitVec.eq_of_toNat_eq
  simp only [fieldIdx, BitVec.extractLsb'_toNat, toNat_layout, Nat.shiftRight_eq_div_pow]
  omega

@[simp] theorem fieldImm_layout (op : Byte) (a b : BitVec 4) (idx imm : Byte) :
    fieldImm (layout op a b idx imm) = imm := by
  apply BitVec.eq_of_toNat_eq
  simp only [fieldImm, BitVec.extractLsb'_toNat, toNat_layout, Nat.shiftRight_eq_div_pow]
  omega

/-- `C` is the upper half of `IDX` (rule R71). -/
@[simp] theorem fieldC_layout (op : Byte) (a b c d : BitVec 4) (imm : Byte) :
    fieldC (layout op a b (c ++ d) imm) = c := by
  apply BitVec.eq_of_toNat_eq
  have h : (c ++ d).toNat = c.toNat * 16 + d.toNat := by
    rw [BitVec.toNat_append, ← Nat.shiftLeft_add_eq_or_of_lt d.isLt, Nat.shiftLeft_eq]
  simp only [fieldC, BitVec.extractLsb'_toNat, toNat_layout, Nat.shiftRight_eq_div_pow, h]
  omega

/-- Every word is the layout of its own fields. -/
theorem layout_fields (c : Word) :
    layout (fieldOp c) (fieldA c) (fieldB c) (fieldIdx c) (fieldImm c) = c := by
  apply BitVec.eq_of_toNat_eq
  simp only [toNat_layout, fieldOp, fieldA, fieldB, fieldIdx, fieldImm, BitVec.extractLsb'_toNat,
    Nat.shiftRight_eq_div_pow]
  have := c.isLt
  omega

end Sys2Proof
end

