-- ==== Sys2Proof/Laws/State.lean ====
section
/-! SUPPORT. One lemma per field per update of State, true by rfl, so that no later proof unfolds a record update; and what
each element write leaves in each field. -/
namespace Sys2Proof.Machine

variable (s : State)

/-! ### withX -/

@[simp] theorem State.withX_x (v : Vector Byte 16) : (s.withX v).x = v := rfl
@[simp] theorem State.withX_q (v : Vector Byte 16) : (s.withX v).q = s.q := rfl
@[simp] theorem State.withX_sr (v : Vector Byte 16) : (s.withX v).sr = s.sr := rfl
@[simp] theorem State.withX_ec (v : Vector Byte 16) : (s.withX v).ec = s.ec := rfl
@[simp] theorem State.withX_ew (v : Vector Byte 16) : (s.withX v).ew = s.ew := rfl
@[simp] theorem State.withX_blk (v : Vector Byte 16) : (s.withX v).blk = s.blk := rfl
@[simp] theorem State.withX_key (v : Vector Byte 16) : (s.withX v).key = s.key := rfl
@[simp] theorem State.withX_rk (v : Vector Byte 16) : (s.withX v).rk = s.rk := rfl
@[simp] theorem State.withX_mat (v : Vector Byte 16) : (s.withX v).mat = s.mat := rfl
@[simp] theorem State.withX_cst (v : Vector Byte 16) : (s.withX v).cst = s.cst := rfl
@[simp] theorem State.withX_tbl (v : Vector Byte 16) : (s.withX v).tbl = s.tbl := rfl
@[simp] theorem State.withX_w (v : Vector Byte 16) : (s.withX v).w = s.w := rfl
@[simp] theorem State.withX_cmds (v : Vector Byte 16) : (s.withX v).cmds = s.cmds := rfl
@[simp] theorem State.withX_responses (v : Vector Byte 16) : (s.withX v).responses = s.responses := rfl

/-! ### withQ -/

@[simp] theorem State.withQ_x (v : Half) : (s.withQ v).x = s.x := rfl
@[simp] theorem State.withQ_q (v : Half) : (s.withQ v).q = v := rfl
@[simp] theorem State.withQ_sr (v : Half) : (s.withQ v).sr = s.sr := rfl
@[simp] theorem State.withQ_ec (v : Half) : (s.withQ v).ec = s.ec := rfl
@[simp] theorem State.withQ_ew (v : Half) : (s.withQ v).ew = s.ew := rfl
@[simp] theorem State.withQ_blk (v : Half) : (s.withQ v).blk = s.blk := rfl
@[simp] theorem State.withQ_key (v : Half) : (s.withQ v).key = s.key := rfl
@[simp] theorem State.withQ_rk (v : Half) : (s.withQ v).rk = s.rk := rfl
@[simp] theorem State.withQ_mat (v : Half) : (s.withQ v).mat = s.mat := rfl
@[simp] theorem State.withQ_cst (v : Half) : (s.withQ v).cst = s.cst := rfl
@[simp] theorem State.withQ_tbl (v : Half) : (s.withQ v).tbl = s.tbl := rfl
@[simp] theorem State.withQ_w (v : Half) : (s.withQ v).w = s.w := rfl
@[simp] theorem State.withQ_cmds (v : Half) : (s.withQ v).cmds = s.cmds := rfl
@[simp] theorem State.withQ_responses (v : Half) : (s.withQ v).responses = s.responses := rfl

/-! ### withSr -/

@[simp] theorem State.withSr_x (v : Byte) : (s.withSr v).x = s.x := rfl
@[simp] theorem State.withSr_q (v : Byte) : (s.withSr v).q = s.q := rfl
@[simp] theorem State.withSr_sr (v : Byte) : (s.withSr v).sr = v := rfl
@[simp] theorem State.withSr_ec (v : Byte) : (s.withSr v).ec = s.ec := rfl
@[simp] theorem State.withSr_ew (v : Byte) : (s.withSr v).ew = s.ew := rfl
@[simp] theorem State.withSr_blk (v : Byte) : (s.withSr v).blk = s.blk := rfl
@[simp] theorem State.withSr_key (v : Byte) : (s.withSr v).key = s.key := rfl
@[simp] theorem State.withSr_rk (v : Byte) : (s.withSr v).rk = s.rk := rfl
@[simp] theorem State.withSr_mat (v : Byte) : (s.withSr v).mat = s.mat := rfl
@[simp] theorem State.withSr_cst (v : Byte) : (s.withSr v).cst = s.cst := rfl
@[simp] theorem State.withSr_tbl (v : Byte) : (s.withSr v).tbl = s.tbl := rfl
@[simp] theorem State.withSr_w (v : Byte) : (s.withSr v).w = s.w := rfl
@[simp] theorem State.withSr_cmds (v : Byte) : (s.withSr v).cmds = s.cmds := rfl
@[simp] theorem State.withSr_responses (v : Byte) : (s.withSr v).responses = s.responses := rfl

/-! ### withEc -/

@[simp] theorem State.withEc_x (v : Byte) : (s.withEc v).x = s.x := rfl
@[simp] theorem State.withEc_q (v : Byte) : (s.withEc v).q = s.q := rfl
@[simp] theorem State.withEc_sr (v : Byte) : (s.withEc v).sr = s.sr := rfl
@[simp] theorem State.withEc_ec (v : Byte) : (s.withEc v).ec = v := rfl
@[simp] theorem State.withEc_ew (v : Byte) : (s.withEc v).ew = s.ew := rfl
@[simp] theorem State.withEc_blk (v : Byte) : (s.withEc v).blk = s.blk := rfl
@[simp] theorem State.withEc_key (v : Byte) : (s.withEc v).key = s.key := rfl
@[simp] theorem State.withEc_rk (v : Byte) : (s.withEc v).rk = s.rk := rfl
@[simp] theorem State.withEc_mat (v : Byte) : (s.withEc v).mat = s.mat := rfl
@[simp] theorem State.withEc_cst (v : Byte) : (s.withEc v).cst = s.cst := rfl
@[simp] theorem State.withEc_tbl (v : Byte) : (s.withEc v).tbl = s.tbl := rfl
@[simp] theorem State.withEc_w (v : Byte) : (s.withEc v).w = s.w := rfl
@[simp] theorem State.withEc_cmds (v : Byte) : (s.withEc v).cmds = s.cmds := rfl
@[simp] theorem State.withEc_responses (v : Byte) : (s.withEc v).responses = s.responses := rfl

/-! ### withEw -/

@[simp] theorem State.withEw_x (v : Word) : (s.withEw v).x = s.x := rfl
@[simp] theorem State.withEw_q (v : Word) : (s.withEw v).q = s.q := rfl
@[simp] theorem State.withEw_sr (v : Word) : (s.withEw v).sr = s.sr := rfl
@[simp] theorem State.withEw_ec (v : Word) : (s.withEw v).ec = s.ec := rfl
@[simp] theorem State.withEw_ew (v : Word) : (s.withEw v).ew = v := rfl
@[simp] theorem State.withEw_blk (v : Word) : (s.withEw v).blk = s.blk := rfl
@[simp] theorem State.withEw_key (v : Word) : (s.withEw v).key = s.key := rfl
@[simp] theorem State.withEw_rk (v : Word) : (s.withEw v).rk = s.rk := rfl
@[simp] theorem State.withEw_mat (v : Word) : (s.withEw v).mat = s.mat := rfl
@[simp] theorem State.withEw_cst (v : Word) : (s.withEw v).cst = s.cst := rfl
@[simp] theorem State.withEw_tbl (v : Word) : (s.withEw v).tbl = s.tbl := rfl
@[simp] theorem State.withEw_w (v : Word) : (s.withEw v).w = s.w := rfl
@[simp] theorem State.withEw_cmds (v : Word) : (s.withEw v).cmds = s.cmds := rfl
@[simp] theorem State.withEw_responses (v : Word) : (s.withEw v).responses = s.responses := rfl

/-! ### withBlk -/

@[simp] theorem State.withBlk_x (v : Block) : (s.withBlk v).x = s.x := rfl
@[simp] theorem State.withBlk_q (v : Block) : (s.withBlk v).q = s.q := rfl
@[simp] theorem State.withBlk_sr (v : Block) : (s.withBlk v).sr = s.sr := rfl
@[simp] theorem State.withBlk_ec (v : Block) : (s.withBlk v).ec = s.ec := rfl
@[simp] theorem State.withBlk_ew (v : Block) : (s.withBlk v).ew = s.ew := rfl
@[simp] theorem State.withBlk_blk (v : Block) : (s.withBlk v).blk = v := rfl
@[simp] theorem State.withBlk_key (v : Block) : (s.withBlk v).key = s.key := rfl
@[simp] theorem State.withBlk_rk (v : Block) : (s.withBlk v).rk = s.rk := rfl
@[simp] theorem State.withBlk_mat (v : Block) : (s.withBlk v).mat = s.mat := rfl
@[simp] theorem State.withBlk_cst (v : Block) : (s.withBlk v).cst = s.cst := rfl
@[simp] theorem State.withBlk_tbl (v : Block) : (s.withBlk v).tbl = s.tbl := rfl
@[simp] theorem State.withBlk_w (v : Block) : (s.withBlk v).w = s.w := rfl
@[simp] theorem State.withBlk_cmds (v : Block) : (s.withBlk v).cmds = s.cmds := rfl
@[simp] theorem State.withBlk_responses (v : Block) : (s.withBlk v).responses = s.responses := rfl

/-! ### withKey -/

@[simp] theorem State.withKey_x (v : Block) : (s.withKey v).x = s.x := rfl
@[simp] theorem State.withKey_q (v : Block) : (s.withKey v).q = s.q := rfl
@[simp] theorem State.withKey_sr (v : Block) : (s.withKey v).sr = s.sr := rfl
@[simp] theorem State.withKey_ec (v : Block) : (s.withKey v).ec = s.ec := rfl
@[simp] theorem State.withKey_ew (v : Block) : (s.withKey v).ew = s.ew := rfl
@[simp] theorem State.withKey_blk (v : Block) : (s.withKey v).blk = s.blk := rfl
@[simp] theorem State.withKey_key (v : Block) : (s.withKey v).key = v := rfl
@[simp] theorem State.withKey_rk (v : Block) : (s.withKey v).rk = s.rk := rfl
@[simp] theorem State.withKey_mat (v : Block) : (s.withKey v).mat = s.mat := rfl
@[simp] theorem State.withKey_cst (v : Block) : (s.withKey v).cst = s.cst := rfl
@[simp] theorem State.withKey_tbl (v : Block) : (s.withKey v).tbl = s.tbl := rfl
@[simp] theorem State.withKey_w (v : Block) : (s.withKey v).w = s.w := rfl
@[simp] theorem State.withKey_cmds (v : Block) : (s.withKey v).cmds = s.cmds := rfl
@[simp] theorem State.withKey_responses (v : Block) : (s.withKey v).responses = s.responses := rfl

/-! ### withRk -/

@[simp] theorem State.withRk_x (v : RoundKeys) : (s.withRk v).x = s.x := rfl
@[simp] theorem State.withRk_q (v : RoundKeys) : (s.withRk v).q = s.q := rfl
@[simp] theorem State.withRk_sr (v : RoundKeys) : (s.withRk v).sr = s.sr := rfl
@[simp] theorem State.withRk_ec (v : RoundKeys) : (s.withRk v).ec = s.ec := rfl
@[simp] theorem State.withRk_ew (v : RoundKeys) : (s.withRk v).ew = s.ew := rfl
@[simp] theorem State.withRk_blk (v : RoundKeys) : (s.withRk v).blk = s.blk := rfl
@[simp] theorem State.withRk_key (v : RoundKeys) : (s.withRk v).key = s.key := rfl
@[simp] theorem State.withRk_rk (v : RoundKeys) : (s.withRk v).rk = v := rfl
@[simp] theorem State.withRk_mat (v : RoundKeys) : (s.withRk v).mat = s.mat := rfl
@[simp] theorem State.withRk_cst (v : RoundKeys) : (s.withRk v).cst = s.cst := rfl
@[simp] theorem State.withRk_tbl (v : RoundKeys) : (s.withRk v).tbl = s.tbl := rfl
@[simp] theorem State.withRk_w (v : RoundKeys) : (s.withRk v).w = s.w := rfl
@[simp] theorem State.withRk_cmds (v : RoundKeys) : (s.withRk v).cmds = s.cmds := rfl
@[simp] theorem State.withRk_responses (v : RoundKeys) : (s.withRk v).responses = s.responses := rfl

/-! ### withMat -/

@[simp] theorem State.withMat_x (v : Matrix) : (s.withMat v).x = s.x := rfl
@[simp] theorem State.withMat_q (v : Matrix) : (s.withMat v).q = s.q := rfl
@[simp] theorem State.withMat_sr (v : Matrix) : (s.withMat v).sr = s.sr := rfl
@[simp] theorem State.withMat_ec (v : Matrix) : (s.withMat v).ec = s.ec := rfl
@[simp] theorem State.withMat_ew (v : Matrix) : (s.withMat v).ew = s.ew := rfl
@[simp] theorem State.withMat_blk (v : Matrix) : (s.withMat v).blk = s.blk := rfl
@[simp] theorem State.withMat_key (v : Matrix) : (s.withMat v).key = s.key := rfl
@[simp] theorem State.withMat_rk (v : Matrix) : (s.withMat v).rk = s.rk := rfl
@[simp] theorem State.withMat_mat (v : Matrix) : (s.withMat v).mat = v := rfl
@[simp] theorem State.withMat_cst (v : Matrix) : (s.withMat v).cst = s.cst := rfl
@[simp] theorem State.withMat_tbl (v : Matrix) : (s.withMat v).tbl = s.tbl := rfl
@[simp] theorem State.withMat_w (v : Matrix) : (s.withMat v).w = s.w := rfl
@[simp] theorem State.withMat_cmds (v : Matrix) : (s.withMat v).cmds = s.cmds := rfl
@[simp] theorem State.withMat_responses (v : Matrix) : (s.withMat v).responses = s.responses := rfl

/-! ### withCst -/

@[simp] theorem State.withCst_x (v : Byte) : (s.withCst v).x = s.x := rfl
@[simp] theorem State.withCst_q (v : Byte) : (s.withCst v).q = s.q := rfl
@[simp] theorem State.withCst_sr (v : Byte) : (s.withCst v).sr = s.sr := rfl
@[simp] theorem State.withCst_ec (v : Byte) : (s.withCst v).ec = s.ec := rfl
@[simp] theorem State.withCst_ew (v : Byte) : (s.withCst v).ew = s.ew := rfl
@[simp] theorem State.withCst_blk (v : Byte) : (s.withCst v).blk = s.blk := rfl
@[simp] theorem State.withCst_key (v : Byte) : (s.withCst v).key = s.key := rfl
@[simp] theorem State.withCst_rk (v : Byte) : (s.withCst v).rk = s.rk := rfl
@[simp] theorem State.withCst_mat (v : Byte) : (s.withCst v).mat = s.mat := rfl
@[simp] theorem State.withCst_cst (v : Byte) : (s.withCst v).cst = v := rfl
@[simp] theorem State.withCst_tbl (v : Byte) : (s.withCst v).tbl = s.tbl := rfl
@[simp] theorem State.withCst_w (v : Byte) : (s.withCst v).w = s.w := rfl
@[simp] theorem State.withCst_cmds (v : Byte) : (s.withCst v).cmds = s.cmds := rfl
@[simp] theorem State.withCst_responses (v : Byte) : (s.withCst v).responses = s.responses := rfl

/-! ### withTbl -/

@[simp] theorem State.withTbl_x (v : Vector Table 4) : (s.withTbl v).x = s.x := rfl
@[simp] theorem State.withTbl_q (v : Vector Table 4) : (s.withTbl v).q = s.q := rfl
@[simp] theorem State.withTbl_sr (v : Vector Table 4) : (s.withTbl v).sr = s.sr := rfl
@[simp] theorem State.withTbl_ec (v : Vector Table 4) : (s.withTbl v).ec = s.ec := rfl
@[simp] theorem State.withTbl_ew (v : Vector Table 4) : (s.withTbl v).ew = s.ew := rfl
@[simp] theorem State.withTbl_blk (v : Vector Table 4) : (s.withTbl v).blk = s.blk := rfl
@[simp] theorem State.withTbl_key (v : Vector Table 4) : (s.withTbl v).key = s.key := rfl
@[simp] theorem State.withTbl_rk (v : Vector Table 4) : (s.withTbl v).rk = s.rk := rfl
@[simp] theorem State.withTbl_mat (v : Vector Table 4) : (s.withTbl v).mat = s.mat := rfl
@[simp] theorem State.withTbl_cst (v : Vector Table 4) : (s.withTbl v).cst = s.cst := rfl
@[simp] theorem State.withTbl_tbl (v : Vector Table 4) : (s.withTbl v).tbl = v := rfl
@[simp] theorem State.withTbl_w (v : Vector Table 4) : (s.withTbl v).w = s.w := rfl
@[simp] theorem State.withTbl_cmds (v : Vector Table 4) : (s.withTbl v).cmds = s.cmds := rfl
@[simp] theorem State.withTbl_responses (v : Vector Table 4) : (s.withTbl v).responses = s.responses := rfl

/-! ### withW -/

@[simp] theorem State.withW_x (v : WalshArray) : (s.withW v).x = s.x := rfl
@[simp] theorem State.withW_q (v : WalshArray) : (s.withW v).q = s.q := rfl
@[simp] theorem State.withW_sr (v : WalshArray) : (s.withW v).sr = s.sr := rfl
@[simp] theorem State.withW_ec (v : WalshArray) : (s.withW v).ec = s.ec := rfl
@[simp] theorem State.withW_ew (v : WalshArray) : (s.withW v).ew = s.ew := rfl
@[simp] theorem State.withW_blk (v : WalshArray) : (s.withW v).blk = s.blk := rfl
@[simp] theorem State.withW_key (v : WalshArray) : (s.withW v).key = s.key := rfl
@[simp] theorem State.withW_rk (v : WalshArray) : (s.withW v).rk = s.rk := rfl
@[simp] theorem State.withW_mat (v : WalshArray) : (s.withW v).mat = s.mat := rfl
@[simp] theorem State.withW_cst (v : WalshArray) : (s.withW v).cst = s.cst := rfl
@[simp] theorem State.withW_tbl (v : WalshArray) : (s.withW v).tbl = s.tbl := rfl
@[simp] theorem State.withW_w (v : WalshArray) : (s.withW v).w = v := rfl
@[simp] theorem State.withW_cmds (v : WalshArray) : (s.withW v).cmds = s.cmds := rfl
@[simp] theorem State.withW_responses (v : WalshArray) : (s.withW v).responses = s.responses := rfl

/-! ### withCmds -/

@[simp] theorem State.withCmds_x (v : List Word) : (s.withCmds v).x = s.x := rfl
@[simp] theorem State.withCmds_q (v : List Word) : (s.withCmds v).q = s.q := rfl
@[simp] theorem State.withCmds_sr (v : List Word) : (s.withCmds v).sr = s.sr := rfl
@[simp] theorem State.withCmds_ec (v : List Word) : (s.withCmds v).ec = s.ec := rfl
@[simp] theorem State.withCmds_ew (v : List Word) : (s.withCmds v).ew = s.ew := rfl
@[simp] theorem State.withCmds_blk (v : List Word) : (s.withCmds v).blk = s.blk := rfl
@[simp] theorem State.withCmds_key (v : List Word) : (s.withCmds v).key = s.key := rfl
@[simp] theorem State.withCmds_rk (v : List Word) : (s.withCmds v).rk = s.rk := rfl
@[simp] theorem State.withCmds_mat (v : List Word) : (s.withCmds v).mat = s.mat := rfl
@[simp] theorem State.withCmds_cst (v : List Word) : (s.withCmds v).cst = s.cst := rfl
@[simp] theorem State.withCmds_tbl (v : List Word) : (s.withCmds v).tbl = s.tbl := rfl
@[simp] theorem State.withCmds_w (v : List Word) : (s.withCmds v).w = s.w := rfl
@[simp] theorem State.withCmds_cmds (v : List Word) : (s.withCmds v).cmds = v := rfl
@[simp] theorem State.withCmds_responses (v : List Word) : (s.withCmds v).responses = s.responses := rfl

/-! ### withResponses -/

@[simp] theorem State.withResponses_x (v : List Response) : (s.withResponses v).x = s.x := rfl
@[simp] theorem State.withResponses_q (v : List Response) : (s.withResponses v).q = s.q := rfl
@[simp] theorem State.withResponses_sr (v : List Response) : (s.withResponses v).sr = s.sr := rfl
@[simp] theorem State.withResponses_ec (v : List Response) : (s.withResponses v).ec = s.ec := rfl
@[simp] theorem State.withResponses_ew (v : List Response) : (s.withResponses v).ew = s.ew := rfl
@[simp] theorem State.withResponses_blk (v : List Response) : (s.withResponses v).blk = s.blk := rfl
@[simp] theorem State.withResponses_key (v : List Response) : (s.withResponses v).key = s.key := rfl
@[simp] theorem State.withResponses_rk (v : List Response) : (s.withResponses v).rk = s.rk := rfl
@[simp] theorem State.withResponses_mat (v : List Response) : (s.withResponses v).mat = s.mat := rfl
@[simp] theorem State.withResponses_cst (v : List Response) : (s.withResponses v).cst = s.cst := rfl
@[simp] theorem State.withResponses_tbl (v : List Response) : (s.withResponses v).tbl = s.tbl := rfl
@[simp] theorem State.withResponses_w (v : List Response) : (s.withResponses v).w = s.w := rfl
@[simp] theorem State.withResponses_cmds (v : List Response) : (s.withResponses v).cmds = s.cmds := rfl
@[simp] theorem State.withResponses_responses (v : List Response) : (s.withResponses v).responses = v := rfl

/-! ### answer -/

@[simp] theorem State.answer_x (r : Response) : (s.answer r).x = s.x := rfl
@[simp] theorem State.answer_q (r : Response) : (s.answer r).q = s.q := rfl
@[simp] theorem State.answer_sr (r : Response) : (s.answer r).sr = s.sr := rfl
@[simp] theorem State.answer_ec (r : Response) : (s.answer r).ec = s.ec := rfl
@[simp] theorem State.answer_ew (r : Response) : (s.answer r).ew = s.ew := rfl
@[simp] theorem State.answer_blk (r : Response) : (s.answer r).blk = s.blk := rfl
@[simp] theorem State.answer_key (r : Response) : (s.answer r).key = s.key := rfl
@[simp] theorem State.answer_rk (r : Response) : (s.answer r).rk = s.rk := rfl
@[simp] theorem State.answer_mat (r : Response) : (s.answer r).mat = s.mat := rfl
@[simp] theorem State.answer_cst (r : Response) : (s.answer r).cst = s.cst := rfl
@[simp] theorem State.answer_tbl (r : Response) : (s.answer r).tbl = s.tbl := rfl
@[simp] theorem State.answer_w (r : Response) : (s.answer r).w = s.w := rfl
@[simp] theorem State.answer_cmds (r : Response) : (s.answer r).cmds = s.cmds := rfl
@[simp] theorem State.answer_responses (r : Response) : (s.answer r).responses = s.responses ++ [r] := rfl

/-! ### faulted -/

@[simp] theorem State.faulted_x (f : FaultCode) (c : Word) : (s.faulted f c).x = s.x := rfl
@[simp] theorem State.faulted_q (f : FaultCode) (c : Word) : (s.faulted f c).q = s.q := rfl
@[simp] theorem State.faulted_sr (f : FaultCode) (c : Word) : (s.faulted f c).sr = s.sr := rfl
@[simp] theorem State.faulted_ec (f : FaultCode) (c : Word) : (s.faulted f c).ec = f.code := rfl
@[simp] theorem State.faulted_ew (f : FaultCode) (c : Word) : (s.faulted f c).ew = c := rfl
@[simp] theorem State.faulted_blk (f : FaultCode) (c : Word) : (s.faulted f c).blk = s.blk := rfl
@[simp] theorem State.faulted_key (f : FaultCode) (c : Word) : (s.faulted f c).key = s.key := rfl
@[simp] theorem State.faulted_rk (f : FaultCode) (c : Word) : (s.faulted f c).rk = s.rk := rfl
@[simp] theorem State.faulted_mat (f : FaultCode) (c : Word) : (s.faulted f c).mat = s.mat := rfl
@[simp] theorem State.faulted_cst (f : FaultCode) (c : Word) : (s.faulted f c).cst = s.cst := rfl
@[simp] theorem State.faulted_tbl (f : FaultCode) (c : Word) : (s.faulted f c).tbl = s.tbl := rfl
@[simp] theorem State.faulted_w (f : FaultCode) (c : Word) : (s.faulted f c).w = s.w := rfl
@[simp] theorem State.faulted_cmds (f : FaultCode) (c : Word) : (s.faulted f c).cmds = s.cmds := rfl
@[simp] theorem State.faulted_responses (f : FaultCode) (c : Word) : (s.faulted f c).responses = s.responses ++ [⟨f.code, 0⟩] := rfl

/-! ### setReg -/

@[simp] theorem State.setReg_x (r : RegNum) (v : Byte) : (s.setReg r v).x = s.x.set r.toNat v r.isLt := rfl
@[simp] theorem State.setReg_q (r : RegNum) (v : Byte) : (s.setReg r v).q = s.q := rfl
@[simp] theorem State.setReg_sr (r : RegNum) (v : Byte) : (s.setReg r v).sr = s.sr := rfl
@[simp] theorem State.setReg_ec (r : RegNum) (v : Byte) : (s.setReg r v).ec = s.ec := rfl
@[simp] theorem State.setReg_ew (r : RegNum) (v : Byte) : (s.setReg r v).ew = s.ew := rfl
@[simp] theorem State.setReg_blk (r : RegNum) (v : Byte) : (s.setReg r v).blk = s.blk := rfl
@[simp] theorem State.setReg_key (r : RegNum) (v : Byte) : (s.setReg r v).key = s.key := rfl
@[simp] theorem State.setReg_rk (r : RegNum) (v : Byte) : (s.setReg r v).rk = s.rk := rfl
@[simp] theorem State.setReg_mat (r : RegNum) (v : Byte) : (s.setReg r v).mat = s.mat := rfl
@[simp] theorem State.setReg_cst (r : RegNum) (v : Byte) : (s.setReg r v).cst = s.cst := rfl
@[simp] theorem State.setReg_tbl (r : RegNum) (v : Byte) : (s.setReg r v).tbl = s.tbl := rfl
@[simp] theorem State.setReg_w (r : RegNum) (v : Byte) : (s.setReg r v).w = s.w := rfl
@[simp] theorem State.setReg_cmds (r : RegNum) (v : Byte) : (s.setReg r v).cmds = s.cmds := rfl
@[simp] theorem State.setReg_responses (r : RegNum) (v : Byte) : (s.setReg r v).responses = s.responses := rfl

/-! ### setBlkByte -/

@[simp] theorem State.setBlkByte_x (i : Fin 16) (v : Byte) : (s.setBlkByte i v).x = s.x := rfl
@[simp] theorem State.setBlkByte_q (i : Fin 16) (v : Byte) : (s.setBlkByte i v).q = s.q := rfl
@[simp] theorem State.setBlkByte_sr (i : Fin 16) (v : Byte) : (s.setBlkByte i v).sr = s.sr := rfl
@[simp] theorem State.setBlkByte_ec (i : Fin 16) (v : Byte) : (s.setBlkByte i v).ec = s.ec := rfl
@[simp] theorem State.setBlkByte_ew (i : Fin 16) (v : Byte) : (s.setBlkByte i v).ew = s.ew := rfl
@[simp] theorem State.setBlkByte_blk (i : Fin 16) (v : Byte) : (s.setBlkByte i v).blk = s.blk.set i v := rfl
@[simp] theorem State.setBlkByte_key (i : Fin 16) (v : Byte) : (s.setBlkByte i v).key = s.key := rfl
@[simp] theorem State.setBlkByte_rk (i : Fin 16) (v : Byte) : (s.setBlkByte i v).rk = s.rk := rfl
@[simp] theorem State.setBlkByte_mat (i : Fin 16) (v : Byte) : (s.setBlkByte i v).mat = s.mat := rfl
@[simp] theorem State.setBlkByte_cst (i : Fin 16) (v : Byte) : (s.setBlkByte i v).cst = s.cst := rfl
@[simp] theorem State.setBlkByte_tbl (i : Fin 16) (v : Byte) : (s.setBlkByte i v).tbl = s.tbl := rfl
@[simp] theorem State.setBlkByte_w (i : Fin 16) (v : Byte) : (s.setBlkByte i v).w = s.w := rfl
@[simp] theorem State.setBlkByte_cmds (i : Fin 16) (v : Byte) : (s.setBlkByte i v).cmds = s.cmds := rfl
@[simp] theorem State.setBlkByte_responses (i : Fin 16) (v : Byte) : (s.setBlkByte i v).responses = s.responses := rfl

/-! ### setKeyByte -/

@[simp] theorem State.setKeyByte_x (i : Fin 16) (v : Byte) : (s.setKeyByte i v).x = s.x := rfl
@[simp] theorem State.setKeyByte_q (i : Fin 16) (v : Byte) : (s.setKeyByte i v).q = s.q := rfl
@[simp] theorem State.setKeyByte_sr (i : Fin 16) (v : Byte) : (s.setKeyByte i v).sr = s.sr := rfl
@[simp] theorem State.setKeyByte_ec (i : Fin 16) (v : Byte) : (s.setKeyByte i v).ec = s.ec := rfl
@[simp] theorem State.setKeyByte_ew (i : Fin 16) (v : Byte) : (s.setKeyByte i v).ew = s.ew := rfl
@[simp] theorem State.setKeyByte_blk (i : Fin 16) (v : Byte) : (s.setKeyByte i v).blk = s.blk := rfl
@[simp] theorem State.setKeyByte_key (i : Fin 16) (v : Byte) : (s.setKeyByte i v).key = s.key.set i v := rfl
@[simp] theorem State.setKeyByte_rk (i : Fin 16) (v : Byte) : (s.setKeyByte i v).rk = s.rk := rfl
@[simp] theorem State.setKeyByte_mat (i : Fin 16) (v : Byte) : (s.setKeyByte i v).mat = s.mat := rfl
@[simp] theorem State.setKeyByte_cst (i : Fin 16) (v : Byte) : (s.setKeyByte i v).cst = s.cst := rfl
@[simp] theorem State.setKeyByte_tbl (i : Fin 16) (v : Byte) : (s.setKeyByte i v).tbl = s.tbl := rfl
@[simp] theorem State.setKeyByte_w (i : Fin 16) (v : Byte) : (s.setKeyByte i v).w = s.w := rfl
@[simp] theorem State.setKeyByte_cmds (i : Fin 16) (v : Byte) : (s.setKeyByte i v).cmds = s.cmds := rfl
@[simp] theorem State.setKeyByte_responses (i : Fin 16) (v : Byte) : (s.setKeyByte i v).responses = s.responses := rfl

/-! ### setMatRow -/

@[simp] theorem State.setMatRow_x (i : Fin 8) (v : Byte) : (s.setMatRow i v).x = s.x := rfl
@[simp] theorem State.setMatRow_q (i : Fin 8) (v : Byte) : (s.setMatRow i v).q = s.q := rfl
@[simp] theorem State.setMatRow_sr (i : Fin 8) (v : Byte) : (s.setMatRow i v).sr = s.sr := rfl
@[simp] theorem State.setMatRow_ec (i : Fin 8) (v : Byte) : (s.setMatRow i v).ec = s.ec := rfl
@[simp] theorem State.setMatRow_ew (i : Fin 8) (v : Byte) : (s.setMatRow i v).ew = s.ew := rfl
@[simp] theorem State.setMatRow_blk (i : Fin 8) (v : Byte) : (s.setMatRow i v).blk = s.blk := rfl
@[simp] theorem State.setMatRow_key (i : Fin 8) (v : Byte) : (s.setMatRow i v).key = s.key := rfl
@[simp] theorem State.setMatRow_rk (i : Fin 8) (v : Byte) : (s.setMatRow i v).rk = s.rk := rfl
@[simp] theorem State.setMatRow_mat (i : Fin 8) (v : Byte) : (s.setMatRow i v).mat = s.mat.set i v := rfl
@[simp] theorem State.setMatRow_cst (i : Fin 8) (v : Byte) : (s.setMatRow i v).cst = s.cst := rfl
@[simp] theorem State.setMatRow_tbl (i : Fin 8) (v : Byte) : (s.setMatRow i v).tbl = s.tbl := rfl
@[simp] theorem State.setMatRow_w (i : Fin 8) (v : Byte) : (s.setMatRow i v).w = s.w := rfl
@[simp] theorem State.setMatRow_cmds (i : Fin 8) (v : Byte) : (s.setMatRow i v).cmds = s.cmds := rfl
@[simp] theorem State.setMatRow_responses (i : Fin 8) (v : Byte) : (s.setMatRow i v).responses = s.responses := rfl

/-! ### setTable -/

@[simp] theorem State.setTable_x (d : Fin 4) (v : Table) : (s.setTable d v).x = s.x := rfl
@[simp] theorem State.setTable_q (d : Fin 4) (v : Table) : (s.setTable d v).q = s.q := rfl
@[simp] theorem State.setTable_sr (d : Fin 4) (v : Table) : (s.setTable d v).sr = s.sr := rfl
@[simp] theorem State.setTable_ec (d : Fin 4) (v : Table) : (s.setTable d v).ec = s.ec := rfl
@[simp] theorem State.setTable_ew (d : Fin 4) (v : Table) : (s.setTable d v).ew = s.ew := rfl
@[simp] theorem State.setTable_blk (d : Fin 4) (v : Table) : (s.setTable d v).blk = s.blk := rfl
@[simp] theorem State.setTable_key (d : Fin 4) (v : Table) : (s.setTable d v).key = s.key := rfl
@[simp] theorem State.setTable_rk (d : Fin 4) (v : Table) : (s.setTable d v).rk = s.rk := rfl
@[simp] theorem State.setTable_mat (d : Fin 4) (v : Table) : (s.setTable d v).mat = s.mat := rfl
@[simp] theorem State.setTable_cst (d : Fin 4) (v : Table) : (s.setTable d v).cst = s.cst := rfl
@[simp] theorem State.setTable_tbl (d : Fin 4) (v : Table) : (s.setTable d v).tbl = s.tbl.set d v := rfl
@[simp] theorem State.setTable_w (d : Fin 4) (v : Table) : (s.setTable d v).w = s.w := rfl
@[simp] theorem State.setTable_cmds (d : Fin 4) (v : Table) : (s.setTable d v).cmds = s.cmds := rfl
@[simp] theorem State.setTable_responses (d : Fin 4) (v : Table) : (s.setTable d v).responses = s.responses := rfl

/-! ### setTableEntry -/

@[simp] theorem State.setTableEntry_x (d : Fin 4) (i v : Byte) : (s.setTableEntry d i v).x = s.x := rfl
@[simp] theorem State.setTableEntry_q (d : Fin 4) (i v : Byte) : (s.setTableEntry d i v).q = s.q := rfl
@[simp] theorem State.setTableEntry_sr (d : Fin 4) (i v : Byte) : (s.setTableEntry d i v).sr = s.sr := rfl
@[simp] theorem State.setTableEntry_ec (d : Fin 4) (i v : Byte) : (s.setTableEntry d i v).ec = s.ec := rfl
@[simp] theorem State.setTableEntry_ew (d : Fin 4) (i v : Byte) : (s.setTableEntry d i v).ew = s.ew := rfl
@[simp] theorem State.setTableEntry_blk (d : Fin 4) (i v : Byte) : (s.setTableEntry d i v).blk = s.blk := rfl
@[simp] theorem State.setTableEntry_key (d : Fin 4) (i v : Byte) : (s.setTableEntry d i v).key = s.key := rfl
@[simp] theorem State.setTableEntry_rk (d : Fin 4) (i v : Byte) : (s.setTableEntry d i v).rk = s.rk := rfl
@[simp] theorem State.setTableEntry_mat (d : Fin 4) (i v : Byte) : (s.setTableEntry d i v).mat = s.mat := rfl
@[simp] theorem State.setTableEntry_cst (d : Fin 4) (i v : Byte) : (s.setTableEntry d i v).cst = s.cst := rfl
@[simp] theorem State.setTableEntry_tbl (d : Fin 4) (i v : Byte) : (s.setTableEntry d i v).tbl = s.tbl.set d (setEntry s.tbl[d] i v) := rfl
@[simp] theorem State.setTableEntry_w (d : Fin 4) (i v : Byte) : (s.setTableEntry d i v).w = s.w := rfl
@[simp] theorem State.setTableEntry_cmds (d : Fin 4) (i v : Byte) : (s.setTableEntry d i v).cmds = s.cmds := rfl
@[simp] theorem State.setTableEntry_responses (d : Fin 4) (i v : Byte) : (s.setTableEntry d i v).responses = s.responses := rfl

end Sys2Proof.Machine
end

