-- ==== Sys2Proof/Laws/Ops.lean ====
section
/-! SUPPORT. What each shared operation can do, said once: registers and elements, flags, operand checks, the two ways a
command ends, and one turn of the command port. -/
namespace Sys2Proof.Machine

/-! ### Registers -/

/-- A register write changes the register it names and no other (rule R21). -/
theorem State.reg_setReg (s : State) (r k : RegNum) (v : Byte) :
    (s.setReg r v).reg k = if k = r then v else s.reg k := by
  unfold State.reg
  by_cases h : k = r
  · subst h; simp
  · have : r.toNat ≠ k.toNat := fun e => h (BitVec.eq_of_toNat_eq e.symm)
    simp [h, this]

@[simp] theorem State.reg_setReg_self (s : State) (r : RegNum) (v : Byte) : (s.setReg r v).reg r = v := by
  simp [State.reg_setReg]

@[simp] theorem State.reg_answer (s : State) (a : Response) (k : RegNum) : (s.answer a).reg k = s.reg k := rfl

@[simp] theorem State.reg_faulted (s : State) (f : FaultCode) (c : Word) (k : RegNum) :
    (s.faulted f c).reg k = s.reg k := rfl

/-! ### Flags (rule R23) -/

@[simp] theorem bijFlag_setBij (sr : Byte) (b : Bool) : bijFlag (setBij sr b) = b := by
  cases b <;> simp [bijFlag, setBij]

@[simp] theorem rkvFlag_setBij (sr : Byte) (b : Bool) : rkvFlag (setBij sr b) = rkvFlag sr := by
  cases b <;> simp [rkvFlag, setBij]

@[simp] theorem rkvFlag_setRkv (sr : Byte) : rkvFlag (setRkv sr) = true := by simp [rkvFlag, setRkv]

@[simp] theorem bijFlag_setRkv (sr : Byte) : bijFlag (setRkv sr) = bijFlag sr := by simp [bijFlag, setRkv]

@[simp] theorem rkvFlag_clearRkv (sr : Byte) : rkvFlag (clearRkv sr) = false := by simp [rkvFlag, clearRkv]

@[simp] theorem bijFlag_clearRkv (sr : Byte) : bijFlag (clearRkv sr) = bijFlag sr := by simp [bijFlag, clearRkv]

/-! ### Operand checks -/

theorem checkRange_eq_some {w n : Nat} {v : BitVec w} {i : Fin n} : checkRange n v = some i ↔ v.toNat = i.val := by
  unfold checkRange
  split
  · simp [Fin.ext_iff]
  · next h => simp; omega

theorem checkRange_eq_none {w n : Nat} {v : BitVec w} : checkRange n v = none ↔ n ≤ v.toNat := by
  unfold checkRange
  split <;> simp <;> omega

theorem destSlot_eq_ok {n : SlotNum} {d : Fin 4} : destSlot n = .ok d ↔ n.toNat = d.val := by
  unfold destSlot
  split
  · simp [Fin.ext_iff]
  · split <;> simp <;> omega

/-- A destination slot is refused in two ways only (rules R303, R304). -/
theorem destSlot_eq_error {n : SlotNum} {f : FaultCode} :
    destSlot n = .error f ↔ (4 ≤ n.toNat ∧ n.toNat < 8 ∧ f = .readOnlyTable) ∨ (8 ≤ n.toNat ∧ f = .operandRange) := by
  unfold destSlot
  split
  · simp; omega
  · split
    · simp only [Except.error.injEq]
      constructor
      · rintro rfl; left; exact ⟨by omega, by omega, rfl⟩
      · rintro (⟨-, -, rfl⟩ | ⟨h, -⟩)
        · rfl
        · omega
    · simp only [Except.error.injEq]
      constructor
      · rintro rfl; right; exact ⟨by omega, rfl⟩
      · rintro (⟨-, h, -⟩ | ⟨-, rfl⟩)
        · omega
        · rfl

/-- A slot operand names no table exactly when it is above 7 (rule R74). -/
theorem State.table?_eq_none {s : State} {n : SlotNum} : s.table? n = none ↔ 8 ≤ n.toNat := by
  unfold State.table?
  repeat' split
  all_goals simp_all <;> bv_omega

/-- A writable slot holds state (rule R30). -/
theorem State.table?_of_lt (s : State) {n : SlotNum} (h : n.toNat < 4) : s.table? n = some s.tbl[n.toNat] := by
  simp [State.table?, h]

/-- What two slot operands give (rules R58, R303, R304, R308). -/
theorem State.slots_eq_ok {s : State} {td ts : SlotNum} {d : Fin 4} {t : Table} :
    s.slots td ts = .ok (d, t) ↔ destSlot td = .ok d ∧ s.table? ts = some t := by
  unfold State.slots
  cases s.table? ts <;> cases destSlot td <;> simp [Except.map]

theorem State.slots_eq_error {s : State} {td ts : SlotNum} {f : FaultCode} :
    s.slots td ts = .error f ↔
      (s.table? ts = none ∧ f = .operandRange) ∨ ((s.table? ts).isSome ∧ destSlot td = .error f) := by
  unfold State.slots
  cases s.table? ts <;> cases destSlot td <;> simp [Except.map, eq_comm]

/-! ### How a command ends -/

/-- A response leaves the state as it is but for the list of responses (rule R12). -/
theorem respond_eq_next {s t : State} {v : Word} : respond s v = .next t ↔ t = s.answer ⟨0, v⟩ := by
  simp [respond, eq_comm]

theorem done_eq_next {s t : State} : done s = .next t ↔ t = s.answer ⟨0, 0⟩ := respond_eq_next

/-- A fault changes `EC` and `EW` and responds, and nothing else (rule R305). -/
theorem raise_eq_next {f : FaultCode} {c : Word} {s t : State} : raise f c s = .next t ↔ t = s.faulted f c := by
  simp [raise, eq_comm]

theorem respondQ_eq_next {s t : State} {n : Nat} :
    respondQ s n = .next t ↔ t = (s.withQ (BitVec.ofNat 16 n)).answer ⟨0, (BitVec.ofNat 16 n).setWidth 32⟩ :=
  respond_eq_next

/-- A metric command either raises OperandRange or writes its integer to `q` and responds with it (rules R220, R249). -/
theorem metric_eq_next {f : Table → Nat} {c : Word} {ts : SlotNum} {s t : State} :
    metric f c ts s = .next t ↔
      (s.table? ts = none ∧ t = s.faulted .operandRange c) ∨
      (∃ tab, s.table? ts = some tab ∧
        t = (s.withQ (BitVec.ofNat 16 (f tab))).answer ⟨0, (BitVec.ofNat 16 (f tab)).setWidth 32⟩) := by
  unfold metric
  cases s.table? ts <;> simp [raise_eq_next, respondQ_eq_next]

/-! ### The command port -/

/-- What an accepted word does (rule R78). -/
theorem deliver_cases (c : Word) (s : State) :
    (∃ e, decode c = .error e ∧ deliver c s = .next (s.faulted .illegalCommand c)) ∨
    (∃ i, decode c = .ok i ∧ deliver c s = exec i s) := by
  unfold deliver
  cases decode c with
  | error e => exact .inl ⟨e, rfl, rfl⟩
  | ok i => exact .inr ⟨i, rfl, rfl⟩

/-- With no command waiting the unit holds its state (rule R319). -/
theorem serve_nil {s : State} (h : s.cmds = []) : serve s = .next s := by simp [serve, h]

theorem serve_cons {s : State} {c : Word} {rest : List Word} (h : s.cmds = c :: rest) :
    serve s = deliver c (s.withCmds rest) := by simp [serve, h]

end Sys2Proof.Machine
end

