-- ==== Sys2Proof/Laws/PerInstr.lean ====
section
/-! SUPPORT. Statements about every command, made per command: the word of a command matches that command's row of rule R75
("A word encodes command M exactly when `c & mask(M) = match(M)`", rule R72). -/
namespace Sys2Proof.Laws

/-- The bits a format's mask compares, in a word laid out as in rule R71. -/
theorem layout_and_mask (f : Format) (op : Byte) (a b : BitVec 4) (idx imm : Byte)
    (h : ∀ k : Fin 24, f.mask.getLsbD k.val = true → (layout op a b idx imm).getLsbD k.val = false)
    (ht : ∀ k : Fin 8, f.mask.getLsbD (24 + k.val) = true) :
    layout op a b idx imm &&& f.mask = op ++ 0#24 := by
  apply BitVec.eq_of_getLsbD_eq
  intro i hi
  have hm : (op ++ 0#24 : BitVec (8 + 24)).getLsbD i = if i < 24 then false else op.getLsbD (i - 24) := by
    rw [BitVec.getLsbD_append]
    split <;> simp
  change _ = (op ++ 0#24 : BitVec (8 + 24)).getLsbD i
  rw [BitVec.getLsbD_and, hm]
  by_cases hlt : i < 24
  · have := h ⟨i, hlt⟩
    cases hmk : f.mask.getLsbD i <;> simp_all
  · have := ht ⟨i - 24, by omega⟩
    rw [show 24 + (⟨i - 24, by omega⟩ : Fin 8).val = i from by simp; omega] at this
    rw [this, getLsbD_layout]
    have h1 : ¬ i < 8 := by omega
    have h2 : ¬ i < 16 := by omega
    have h3 : ¬ i < 20 := by omega
    simp [h1, h2, h3, hlt]

theorem wordN_and_mask (op : Byte) :
    wordN op &&& Format.n.mask = op ++ 0#24 :=
  layout_and_mask .n _ _ _ _ _
    (by intro k; rw [getLsbD_layout]; revert k; simp [Format.mask]) (by decide)

theorem wordA_and_mask (op : Byte) (a : BitVec 4) :
    wordA op a &&& Format.a.mask = op ++ 0#24 :=
  layout_and_mask .a _ _ _ _ _
    (by intro k; rw [getLsbD_layout]; revert k; simp [Fin.forall_fin_succ, Format.mask]) (by decide)

theorem wordB_and_mask (op : Byte) (b : BitVec 4) :
    wordB op b &&& Format.b.mask = op ++ 0#24 :=
  layout_and_mask .b _ _ _ _ _
    (by intro k; rw [getLsbD_layout]; revert k; simp [Fin.forall_fin_succ, Format.mask]) (by decide)

theorem wordI_and_mask (op : Byte) (imm : Byte) :
    wordI op imm &&& Format.i.mask = op ++ 0#24 :=
  layout_and_mask .i _ _ _ _ _
    (by intro k; rw [getLsbD_layout]; revert k; simp [Fin.forall_fin_succ, Format.mask]) (by decide)

theorem wordAB_and_mask (op : Byte) (a : BitVec 4) (b : BitVec 4) :
    wordAB op a b &&& Format.ab.mask = op ++ 0#24 :=
  layout_and_mask .ab _ _ _ _ _
    (by intro k; rw [getLsbD_layout]; revert k; simp [Fin.forall_fin_succ, Format.mask]) (by decide)

theorem wordAI_and_mask (op : Byte) (a : BitVec 4) (imm : Byte) :
    wordAI op a imm &&& Format.ai.mask = op ++ 0#24 :=
  layout_and_mask .ai _ _ _ _ _
    (by intro k; rw [getLsbD_layout]; revert k; simp [Fin.forall_fin_succ, Format.mask]) (by decide)

theorem wordBI_and_mask (op : Byte) (b : BitVec 4) (imm : Byte) :
    wordBI op b imm &&& Format.bi.mask = op ++ 0#24 :=
  layout_and_mask .bi _ _ _ _ _
    (by intro k; rw [getLsbD_layout]; revert k; simp [Fin.forall_fin_succ, Format.mask]) (by decide)

theorem wordABC_and_mask (op : Byte) (a : BitVec 4) (b : BitVec 4) (c : BitVec 4) :
    wordABC op a b c &&& Format.abc.mask = op ++ 0#24 :=
  layout_and_mask .abc _ _ _ _ _
    (by intro k; rw [getLsbD_layout]; revert k; simp [Fin.forall_fin_succ, Format.mask]; revert c; decide) (by decide)

theorem wordX_and_mask (op : Byte) (idx : Byte) :
    wordX op idx &&& Format.x.mask = op ++ 0#24 :=
  layout_and_mask .x _ _ _ _ _
    (by intro k; rw [getLsbD_layout]; revert k; simp [Fin.forall_fin_succ, Format.mask]) (by decide)

theorem wordXI_and_mask (op : Byte) (idx : Byte) (imm : Byte) :
    wordXI op idx imm &&& Format.xi.mask = op ++ 0#24 :=
  layout_and_mask .xi _ _ _ _ _
    (by intro k; rw [getLsbD_layout]; revert k; simp [Fin.forall_fin_succ, Format.mask]) (by decide)

theorem wordAX_and_mask (op : Byte) (a : BitVec 4) (idx : Byte) :
    wordAX op a idx &&& Format.ax.mask = op ++ 0#24 :=
  layout_and_mask .ax _ _ _ _ _
    (by intro k; rw [getLsbD_layout]; revert k; simp [Fin.forall_fin_succ, Format.mask]) (by decide)

theorem wordAXI_and_mask (op : Byte) (a : BitVec 4) (idx : Byte) (imm : Byte) :
    wordAXI op a idx imm &&& Format.axi.mask = op ++ 0#24 :=
  layout_and_mask .axi _ _ _ _ _
    (by intro k; rw [getLsbD_layout]; revert k; simp [Fin.forall_fin_succ, Format.mask]) (by decide)

/-- The word of a command has its row's opcode and matches its row (rules R72, R75). -/
def EncodesOwnRow.Statement (i : Instr) : Prop :=
  fieldOp (encode i) = i.mnemonic.opcode ∧ encode i &&& i.mnemonic.format.mask = i.mnemonic.matchWord

theorem EncodesOwnRow.nop : EncodesOwnRow.Statement .nop :=
  ⟨fieldOp_layout _ _ _ _ _, wordN_and_mask _⟩
theorem EncodesOwnRow.ldi (rd : RegNum) (imm8 : Byte) : EncodesOwnRow.Statement (.ldi rd imm8) :=
  ⟨fieldOp_layout _ _ _ _ _, wordAI_and_mask _ _ _⟩
theorem EncodesOwnRow.mov (rd : RegNum) (ra : RegNum) : EncodesOwnRow.Statement (.mov rd ra) :=
  ⟨fieldOp_layout _ _ _ _ _, wordAB_and_mask _ _ _⟩
theorem EncodesOwnRow.rdx (ra : RegNum) : EncodesOwnRow.Statement (.rdx ra) :=
  ⟨fieldOp_layout _ _ _ _ _, wordA_and_mask _ _⟩
theorem EncodesOwnRow.rdq : EncodesOwnRow.Statement .rdq :=
  ⟨fieldOp_layout _ _ _ _ _, wordN_and_mask _⟩
theorem EncodesOwnRow.rdsr : EncodesOwnRow.Statement .rdsr :=
  ⟨fieldOp_layout _ _ _ _ _, wordN_and_mask _⟩
theorem EncodesOwnRow.rdec : EncodesOwnRow.Statement .rdec :=
  ⟨fieldOp_layout _ _ _ _ _, wordN_and_mask _⟩
theorem EncodesOwnRow.rdew : EncodesOwnRow.Statement .rdew :=
  ⟨fieldOp_layout _ _ _ _ _, wordN_and_mask _⟩
theorem EncodesOwnRow.clrf : EncodesOwnRow.Statement .clrf :=
  ⟨fieldOp_layout _ _ _ _ _, wordN_and_mask _⟩
theorem EncodesOwnRow.bwi (idx : Byte) (imm8 : Byte) : EncodesOwnRow.Statement (.bwi idx imm8) :=
  ⟨fieldOp_layout _ _ _ _ _, wordXI_and_mask _ _ _⟩
theorem EncodesOwnRow.brd (idx : Byte) : EncodesOwnRow.Statement (.brd idx) :=
  ⟨fieldOp_layout _ _ _ _ _, wordX_and_mask _ _⟩
theorem EncodesOwnRow.bst (ra : RegNum) (idx : Byte) : EncodesOwnRow.Statement (.bst ra idx) :=
  ⟨fieldOp_layout _ _ _ _ _, wordAX_and_mask _ _ _⟩
theorem EncodesOwnRow.bld (rd : RegNum) (idx : Byte) : EncodesOwnRow.Statement (.bld rd idx) :=
  ⟨fieldOp_layout _ _ _ _ _, wordAX_and_mask _ _ _⟩
theorem EncodesOwnRow.kwi (idx : Byte) (imm8 : Byte) : EncodesOwnRow.Statement (.kwi idx imm8) :=
  ⟨fieldOp_layout _ _ _ _ _, wordXI_and_mask _ _ _⟩
theorem EncodesOwnRow.krd (idx : Byte) : EncodesOwnRow.Statement (.krd idx) :=
  ⟨fieldOp_layout _ _ _ _ _, wordX_and_mask _ _⟩
theorem EncodesOwnRow.rkrd (rnd : BitVec 4) (idx : Byte) : EncodesOwnRow.Statement (.rkrd rnd idx) :=
  ⟨fieldOp_layout _ _ _ _ _, wordAX_and_mask _ _ _⟩
theorem EncodesOwnRow.mwi (idx : Byte) (imm8 : Byte) : EncodesOwnRow.Statement (.mwi idx imm8) :=
  ⟨fieldOp_layout _ _ _ _ _, wordXI_and_mask _ _ _⟩
theorem EncodesOwnRow.mrd (idx : Byte) : EncodesOwnRow.Statement (.mrd idx) :=
  ⟨fieldOp_layout _ _ _ _ _, wordX_and_mask _ _⟩
theorem EncodesOwnRow.cwi (imm8 : Byte) : EncodesOwnRow.Statement (.cwi imm8) :=
  ⟨fieldOp_layout _ _ _ _ _, wordI_and_mask _ _⟩
theorem EncodesOwnRow.crd : EncodesOwnRow.Statement .crd :=
  ⟨fieldOp_layout _ _ _ _ _, wordN_and_mask _⟩
theorem EncodesOwnRow.twi (td : SlotNum) (idx : Byte) (imm8 : Byte) : EncodesOwnRow.Statement (.twi td idx imm8) :=
  ⟨fieldOp_layout _ _ _ _ _, wordAXI_and_mask _ _ _ _⟩
theorem EncodesOwnRow.trd (ts : SlotNum) (idx : Byte) : EncodesOwnRow.Statement (.trd ts idx) :=
  ⟨fieldOp_layout _ _ _ _ _, wordAX_and_mask _ _ _⟩
theorem EncodesOwnRow.tld (rd : RegNum) (ts : SlotNum) (ra : RegNum) : EncodesOwnRow.Statement (.tld rd ts ra) :=
  ⟨fieldOp_layout _ _ _ _ _, wordABC_and_mask _ _ _ _⟩
theorem EncodesOwnRow.tst (td : SlotNum) (ra : RegNum) (rb : RegNum) : EncodesOwnRow.Statement (.tst td ra rb) :=
  ⟨fieldOp_layout _ _ _ _ _, wordABC_and_mask _ _ _ _⟩
theorem EncodesOwnRow.tcpy (td : SlotNum) (ts : SlotNum) : EncodesOwnRow.Statement (.tcpy td ts) :=
  ⟨fieldOp_layout _ _ _ _ _, wordAB_and_mask _ _ _⟩
theorem EncodesOwnRow.wrd (idx : Byte) : EncodesOwnRow.Statement (.wrd idx) :=
  ⟨fieldOp_layout _ _ _ _ _, wordX_and_mask _ _⟩
theorem EncodesOwnRow.gfmul (rd : RegNum) (ra : RegNum) (rb : RegNum) : EncodesOwnRow.Statement (.gfmul rd ra rb) :=
  ⟨fieldOp_layout _ _ _ _ _, wordABC_and_mask _ _ _ _⟩
theorem EncodesOwnRow.gfinv (rd : RegNum) (ra : RegNum) : EncodesOwnRow.Statement (.gfinv rd ra) :=
  ⟨fieldOp_layout _ _ _ _ _, wordAB_and_mask _ _ _⟩
theorem EncodesOwnRow.xor (rd : RegNum) (ra : RegNum) (rb : RegNum) : EncodesOwnRow.Statement (.xor rd ra rb) :=
  ⟨fieldOp_layout _ _ _ _ _, wordABC_and_mask _ _ _ _⟩
theorem EncodesOwnRow.sbgen (td : SlotNum) : EncodesOwnRow.Statement (.sbgen td) :=
  ⟨fieldOp_layout _ _ _ _ _, wordA_and_mask _ _⟩
theorem EncodesOwnRow.sbchk (ts : SlotNum) : EncodesOwnRow.Statement (.sbchk ts) :=
  ⟨fieldOp_layout _ _ _ _ _, wordB_and_mask _ _⟩
theorem EncodesOwnRow.sbinv (td : SlotNum) (ts : SlotNum) : EncodesOwnRow.Statement (.sbinv td ts) :=
  ⟨fieldOp_layout _ _ _ _ _, wordAB_and_mask _ _ _⟩
theorem EncodesOwnRow.sbinvl (td : SlotNum) (ts : SlotNum) : EncodesOwnRow.Statement (.sbinvl td ts) :=
  ⟨fieldOp_layout _ _ _ _ _, wordAB_and_mask _ _ _⟩
theorem EncodesOwnRow.mpre (p : Byte) : EncodesOwnRow.Statement (.mpre p) :=
  ⟨fieldOp_layout _ _ _ _ _, wordI_and_mask _ _⟩
theorem EncodesOwnRow.subb (ts : SlotNum) : EncodesOwnRow.Statement (.subb ts) :=
  ⟨fieldOp_layout _ _ _ _ _, wordB_and_mask _ _⟩
theorem EncodesOwnRow.shrow : EncodesOwnRow.Statement .shrow :=
  ⟨fieldOp_layout _ _ _ _ _, wordN_and_mask _⟩
theorem EncodesOwnRow.ishrow : EncodesOwnRow.Statement .ishrow :=
  ⟨fieldOp_layout _ _ _ _ _, wordN_and_mask _⟩
theorem EncodesOwnRow.mixc : EncodesOwnRow.Statement .mixc :=
  ⟨fieldOp_layout _ _ _ _ _, wordN_and_mask _⟩
theorem EncodesOwnRow.imixc : EncodesOwnRow.Statement .imixc :=
  ⟨fieldOp_layout _ _ _ _ _, wordN_and_mask _⟩
theorem EncodesOwnRow.addrk (rnd : Byte) : EncodesOwnRow.Statement (.addrk rnd) :=
  ⟨fieldOp_layout _ _ _ _ _, wordI_and_mask _ _⟩
theorem EncodesOwnRow.keyexp : EncodesOwnRow.Statement .keyexp :=
  ⟨fieldOp_layout _ _ _ _ _, wordN_and_mask _⟩
theorem EncodesOwnRow.encb (ts : SlotNum) : EncodesOwnRow.Statement (.encb ts) :=
  ⟨fieldOp_layout _ _ _ _ _, wordB_and_mask _ _⟩
theorem EncodesOwnRow.decb (ts : SlotNum) : EncodesOwnRow.Statement (.decb ts) :=
  ⟨fieldOp_layout _ _ _ _ _, wordB_and_mask _ _⟩
theorem EncodesOwnRow.wload (ts : SlotNum) (mask : Byte) : EncodesOwnRow.Statement (.wload ts mask) :=
  ⟨fieldOp_layout _ _ _ _ _, wordBI_and_mask _ _ _⟩
theorem EncodesOwnRow.fwht : EncodesOwnRow.Statement .fwht :=
  ⟨fieldOp_layout _ _ _ _ _, wordN_and_mask _⟩
theorem EncodesOwnRow.wmax : EncodesOwnRow.Statement .wmax :=
  ⟨fieldOp_layout _ _ _ _ _, wordN_and_mask _⟩
theorem EncodesOwnRow.nl (ts : SlotNum) : EncodesOwnRow.Statement (.nl ts) :=
  ⟨fieldOp_layout _ _ _ _ _, wordB_and_mask _ _⟩
theorem EncodesOwnRow.sac (ts : SlotNum) : EncodesOwnRow.Statement (.sac ts) :=
  ⟨fieldOp_layout _ _ _ _ _, wordB_and_mask _ _⟩
theorem EncodesOwnRow.lap (ts : SlotNum) : EncodesOwnRow.Statement (.lap ts) :=
  ⟨fieldOp_layout _ _ _ _ _, wordB_and_mask _ _⟩
theorem EncodesOwnRow.dap (ts : SlotNum) : EncodesOwnRow.Statement (.dap ts) :=
  ⟨fieldOp_layout _ _ _ _ _, wordB_and_mask _ _⟩
theorem EncodesOwnRow.du (ts : SlotNum) : EncodesOwnRow.Statement (.du ts) :=
  ⟨fieldOp_layout _ _ _ _ _, wordB_and_mask _ _⟩
theorem EncodesOwnRow.ad (ts : SlotNum) : EncodesOwnRow.Statement (.ad ts) :=
  ⟨fieldOp_layout _ _ _ _ _, wordB_and_mask _ _⟩
theorem EncodesOwnRow.bic (ts : SlotNum) : EncodesOwnRow.Statement (.bic ts) :=
  ⟨fieldOp_layout _ _ _ _ _, wordB_and_mask _ _⟩
theorem EncodesOwnRow.fixp (ts : SlotNum) : EncodesOwnRow.Statement (.fixp ts) :=
  ⟨fieldOp_layout _ _ _ _ _, wordB_and_mask _ _⟩

end Sys2Proof.Laws
end

