-- ==== Sys2Proof/Tests/Slice0.lean ====
section
/-! SUPPORT. Tests on fixed values: each operand check refuses an ill-formed term, every command's word written out from the
spec's encoding decodes to it, one step of each command against the examples and vectors of spec/ (named in the comments),
and a witness for the hypotheses of each statement that has some. -/
namespace Sys2Proof.Tests

open Sys2Proof.Machine

/-! ### WellFormed: each check refuses an ill-formed term (rules R74, R78) -/

theorem test_wf_block_index :
    ((Instr.bwi 16 0).inRange || (Instr.brd 16).inRange || (Instr.bst 0 16).inRange || (Instr.bld 0 255).inRange) = false ∧
    (Instr.bwi 15 0).wellFormed = true := by decide

theorem test_wf_key_index :
    ((Instr.kwi 16 0).inRange || (Instr.krd 16).inRange || (Instr.rkrd 0 16).inRange) = false ∧
    (Instr.krd 15).wellFormed = true := by decide

theorem test_wf_round :
    ((Instr.rkrd 11 0).inRange || (Instr.addrk 11).inRange) = false ∧
    ((Instr.rkrd 10 15).wellFormed && (Instr.addrk 10).wellFormed) = true := by decide

theorem test_wf_matrix_row :
    ((Instr.mwi 8 0).inRange || (Instr.mrd 8).inRange) = false ∧ (Instr.mwi 7 0).wellFormed = true := by decide

theorem test_wf_preset : (Instr.mpre 2).inRange = false ∧ (Instr.mpre 1).wellFormed = true := by decide

theorem test_wf_source_slot :
    ((Instr.trd 8 0).inRange || (Instr.tld 0 8 0).inRange || (Instr.tcpy 0 8).inRange || (Instr.sbchk 8).inRange ||
      (Instr.sbinv 0 8).inRange || (Instr.sbinvl 0 8).inRange || (Instr.subb 8).inRange || (Instr.encb 8).inRange ||
      (Instr.decb 8).inRange || (Instr.wload 8 0).inRange) = false ∧ (Instr.trd 7 0).wellFormed = true := by decide

theorem test_wf_metric_slot :
    ((Instr.nl 8).inRange || (Instr.sac 8).inRange || (Instr.lap 8).inRange || (Instr.dap 8).inRange ||
      (Instr.du 8).inRange || (Instr.ad 8).inRange || (Instr.bic 8).inRange || (Instr.fixp 15).inRange) = false ∧
    (Instr.nl 7).wellFormed = true := by decide

theorem test_wf_dest_slot_exists :
    ((Instr.twi 8 0 0).inRange || (Instr.tst 8 0 0).inRange || (Instr.tcpy 8 0).inRange || (Instr.sbgen 8).inRange ||
      (Instr.sbinv 8 0).inRange || (Instr.sbinvl 8 0).inRange) = false ∧ (Instr.sbgen 3).wellFormed = true := by decide

theorem test_wf_dest_slot_writable :
    ((Instr.twi 4 0 0).destWritable || (Instr.tst 5 0 0).destWritable || (Instr.tcpy 6 0).destWritable ||
      (Instr.sbgen 7).destWritable || (Instr.sbinv 4 0).destWritable || (Instr.sbinvl 4 0).destWritable) = false ∧
    (Instr.twi 3 0 0).wellFormed = true ∧ (Instr.twi 4 0 0).inRange = true := by decide

/-! ### Decode: words written out from rule R75 and the examples of the command rules -/

/-- The command the word decodes to. -/
def dec (w : Word) : Option Instr := (decode w).toOption

theorem test_decode_moves :
    dec 0x00000000 = some .nop ∧ dec 0x01100057 = some (.ldi 1 0x57) ∧ dec 0x02210000 = some (.mov 2 1) ∧
    dec 0x03300000 = some (.rdx 3) ∧ dec 0x04000000 = some .rdq ∧ dec 0x05000000 = some .rdsr ∧
    dec 0x06000000 = some .rdec ∧ dec 0x07000000 = some .rdew ∧ dec 0x08000000 = some .clrf := by decide

theorem test_decode_elements :
    dec 0x100005A7 = some (.bwi 5 0xA7) ∧ dec 0x11000F00 = some (.brd 15) ∧ dec 0x12400300 = some (.bst 4 3) ∧
    dec 0x13700000 = some (.bld 7 0) ∧ dec 0x1400004D = some (.kwi 0 0x4D) ∧ dec 0x15000000 = some (.krd 0) ∧
    dec 0x16A00F00 = some (.rkrd 10 15) ∧ dec 0x180000F8 = some (.mwi 0 0xF8) ∧ dec 0x19000700 = some (.mrd 7) ∧
    dec 0x1A000063 = some (.cwi 0x63) ∧ dec 0x1B000000 = some .crd := by decide

theorem test_decode_tables :
    dec 0x200053ED = some (.twi 0 0x53 0xED) ∧ dec 0x21405300 = some (.trd 4 0x53) ∧ dec 0x22453000 = some (.tld 4 5 3) ∧
    dec 0x23123000 = some (.tst 1 2 3) ∧ dec 0x24040000 = some (.tcpy 0 4) ∧ dec 0x28000100 = some (.wrd 1) := by decide

theorem test_decode_gf : dec 0x30312000 = some (.gfmul 3 1 2) ∧ dec 0x31430000 = some (.gfinv 4 3) ∧
    dec 0x32512000 = some (.xor 5 1 2) := by decide

theorem test_decode_sbox :
    dec 0x40000000 = some (.sbgen 0) ∧ dec 0x41040000 = some (.sbchk 4) ∧ dec 0x42140000 = some (.sbinv 1 4) ∧
    dec 0x43100000 = some (.sbinvl 1 0) ∧ dec 0x44000000 = some (.mpre 0) := by decide

theorem test_decode_round_and_block :
    dec 0x50040000 = some (.subb 4) ∧ dec 0x51000000 = some .shrow ∧ dec 0x52000000 = some .ishrow ∧
    dec 0x53000000 = some .mixc ∧ dec 0x54000000 = some .imixc ∧ dec 0x5500000A = some (.addrk 10) ∧
    dec 0x58000000 = some .keyexp ∧ dec 0x59040000 = some (.encb 4) ∧ dec 0x5A050000 = some (.decb 5) := by decide

theorem test_decode_cryptan :
    dec 0x60040001 = some (.wload 4 1) ∧ dec 0x61000000 = some .fwht ∧ dec 0x62000000 = some .wmax ∧
    dec 0x68040000 = some (.nl 4) ∧ dec 0x69040000 = some (.sac 4) ∧ dec 0x6A040000 = some (.lap 4) ∧
    dec 0x6B040000 = some (.dap 4) ∧ dec 0x6C040000 = some (.du 4) ∧ dec 0x6D040000 = some (.ad 4) ∧
    dec 0x6E040000 = some (.bic 4) ∧ dec 0x6F040000 = some (.fixp 4) := by decide

/-- V70, and the gaps of rule R76 at their edges. -/
theorem test_decode_illegal :
    decode 0x09000000 = .error .unassignedOpcode ∧ decode 0xFFFFFFFF = .error .unassignedOpcode ∧
    decode 0x00000001 = .error .mustBeZeroBitSet ∧ decode 0x01110057 = .error .mustBeZeroBitSet ∧
    decode 0x61000100 = .error .mustBeZeroBitSet ∧ decode 0x5500010B = .error .mustBeZeroBitSet ∧
    dec 0x17000000 = none ∧ dec 0x1C000000 = none ∧ dec 0x27000000 = none ∧ dec 0x33000000 = none ∧
    dec 0x45000000 = none ∧ dec 0x56000000 = none ∧ dec 0x5B000000 = none ∧ dec 0x67000000 = none ∧
    dec 0x70000000 = none := by decide

theorem test_decode_table_word :
    decodeTableWord 32 0x30312000 = some (.gfmul 3 1 2) ∧ decodeTableWord 32 0x09000000 = none := by decide

/-! ### One step -/

/-- What the state after a command reads as. -/
def after {α : Type} (i : Instr) (s : State) (f : State → α) : Option α :=
  match exec i s with
  | .next t => some (f t)
  | .fault _ => none
  | .refused _ => none

/-- The last response after a command. -/
def answerOf (i : Instr) (s : State) : Option (Byte × Word) :=
  after i s fun t => let r := t.responses.getLastD ⟨0xFF, 0⟩; (r.status, r.data)

/-- A small state: `x1 = 0x57`, `x2 = 0x83`, `x3 = 0x53`, `x4 = 0x1B`, the rest as after reset. -/
def small : State := (((State.reset.setReg 1 0x57).setReg 2 0x83).setReg 3 0x53).setReg 4 0x1B

/-- The block `00 01 02 ... 0f`. -/
def counting : Block := tabulate 16 fun i => BitVec.ofNat 8 i.val

theorem test_nop : answerOf .nop small = some (0, 0) := by decide
/-- Rule R102. -/
theorem test_ldi : after (.ldi 1 0x57) State.reset (·.reg 1) = some 0x57 := by decide
/-- Rule R103. -/
theorem test_mov : after (.mov 2 1) small (·.reg 2) = some 0x57 := by decide
/-- Rule R104. -/
theorem test_rdx : answerOf (.rdx 3) (State.reset.setReg 3 0xC1) = some (0, 0xC1) := by decide
/-- Rule R105. -/
theorem test_rdq : answerOf .rdq (State.reset.withQ 112) = some (0, 112) := by decide
/-- Rule R106: RKV is bit 1, and the bits above are not shown. -/
theorem test_rdsr : answerOf .rdsr (State.reset.withSr 0xFE) = some (0, 2) := by decide
/-- Rules R107, R108. -/
theorem test_rdec : answerOf .rdec ((State.reset.withEc 1).withEw 0x09000000) = some (0, 1) := by decide
theorem test_rdew : answerOf .rdew ((State.reset.withEc 1).withEw 0x09000000) = some (0, 0x09000000) := by decide
/-- Rule R109. -/
theorem test_clrf : after .clrf ((State.reset.withEc 1).withEw 0x09000000) (fun t => (t.ec, t.ew)) = some (0, 0) := by decide
/-- Rule R110, V70. -/
theorem test_bwi : after (.bwi 5 0xA7) State.reset (fun t => (t.blk[5], t.blk[4])) = some (0xA7, 0) := by decide
theorem test_bwi_range : after (.bwi 16 0) State.reset (fun t => (t.ec, t.ew)) = some (2, 0x10001000) := by decide
/-- Rule R111. -/
theorem test_brd : answerOf (.brd 15) (State.reset.withBlk counting) = some (0, 15) := by decide
/-- Rule R112. -/
theorem test_bst : after (.bst 4 3) small (·.blk[3]) = some 0x1B := by decide
/-- Rule R113. -/
theorem test_bld : after (.bld 7 9) (State.reset.withBlk counting) (·.reg 7) = some 9 := by decide
/-- Rule R114: RKV is cleared, BIJ kept; out of range it is not cleared (V70, rows 12 and 13). -/
theorem test_kwi : after (.kwi 0 0x4D) (State.reset.withSr 3) (fun t => (t.key[0], t.sr)) = some (0x4D, 1) := by decide
theorem test_kwi_range : after (.kwi 16 0) (State.reset.withSr 2) (fun t => (t.sr, t.ec)) = some (2, 2) := by decide
/-- Rule R115. -/
theorem test_krd : answerOf (.krd 14) (State.reset.withKey counting) = some (0, 14) := by decide
/-- Rule R116: the last byte of the expanded zero key, with RKV clear (V40). -/
theorem test_rkrd : answerOf (.rkrd 10 15) (State.reset.withRk (keyExpansion State.reset.key)) = some (0, 0x11) := by decide
theorem test_rkrd_range : answerOf (.rkrd 11 0) State.reset = some (2, 0) := by decide
/-- Rule R117, V70. -/
theorem test_mwi : after (.mwi 1 0x7C) State.reset (fun t => (t.mat[0], t.mat[1])) = some (0, 0x7C) := by decide
theorem test_mwi_range : answerOf (.mwi 8 0) State.reset = some (2, 0) := by decide
/-- Rules R118, R36. -/
theorem test_mrd : answerOf (.mrd 7) (State.reset.withMat Config.aesPreset.mat) = some (0, 0xF1) := by decide
/-- Rules R119, R120. -/
theorem test_cwi : after (.cwi 0x63) State.reset (·.cst) = some 0x63 := by decide
theorem test_crd : answerOf .crd (State.reset.withCst 0x63) = some (0, 0x63) := by decide
/-- Rule R121, V70. -/
theorem test_twi : after (.twi 0 0x53 0xED) State.reset (fun t => (entry t.tbl[0] 0x53, entry t.tbl[1] 0x53)) = some (0xED, 0) := by
  decide +kernel
theorem test_twi_faults : answerOf (.twi 4 0 0) State.reset = some (3, 0) ∧ answerOf (.twi 8 0 0) State.reset = some (2, 0) := by
  decide
/-- Rule R122. -/
theorem test_trd : answerOf (.trd 4 0x53) State.reset = some (0, 0xED) := by decide +kernel
theorem test_trd_range : answerOf (.trd 8 0) State.reset = some (2, 0) := by decide
/-- Rule R123. -/
theorem test_tld : after (.tld 4 5 3) (State.reset.setReg 3 0xED) (·.reg 4) = some 0x53 := by decide +kernel
/-- Rule R124: the entry numbered by the first source, the value of the second. -/
theorem test_tst : after (.tst 1 2 3) small (fun t => entry t.tbl[1] 0x83) = some 0x53 := by decide +kernel
/-- Rule R125, V70. -/
theorem test_tcpy : after (.tcpy 0 4) State.reset (fun t => entry t.tbl[0] 0x53) = some 0xED := by decide +kernel
theorem test_tcpy_fault : answerOf (.tcpy 5 4) State.reset = some (3, 0) := by decide +kernel
/-- Rule R126. -/
theorem test_wrd : answerOf (.wrd 4) (State.reset.withW (setEntry State.reset.w 4 0xFFF0)) = some (0, 0xFFFFFFF0) := by
  decide +kernel

/-- V10, V11. -/
theorem test_gfmul : after (.gfmul 3 1 2) small (·.reg 3) = some 0xC1 := by decide
theorem test_gfmul_same : after (.gfmul 1 1 1) (State.reset.setReg 1 0x10) (·.reg 1) = some 0x1B := by decide
/-- V13: zero, and 0x53. -/
theorem test_gfinv : after (.gfinv 4 3) small (·.reg 4) = some 0xCA := by decide +kernel
theorem test_gfinv_zero : after (.gfinv 1 0) small (·.reg 1) = some 0 := by decide
/-- Rule R145. -/
theorem test_xor : after (.xor 5 1 2) small (·.reg 5) = some 0xD4 := by decide

/-- V20: the output byte for the input 0x53 under the AES preset. -/
theorem test_sbgen_entry : matVec Config.aesPreset.mat (gfInv 0x53) ^^^ Config.aesPreset.cst = 0xED := by decide +kernel
/-- Rule R162: after reset the generated table is constant zero. -/
theorem test_sbgen_faults : answerOf (.sbgen 7) State.reset = some (3, 0) ∧ answerOf (.sbgen 9) State.reset = some (2, 0) := by
  decide
/-- V24: a slot fresh from reset is no bijection; BIJ is cleared and RKV kept. -/
theorem test_sbchk : after (.sbchk 0) (State.reset.withSr 3) (·.sr) = some 2 := by decide +kernel
theorem test_sbchk_range : answerOf (.sbchk 8) State.reset = some (2, 0) := by decide
/-- V25, and the priorities of rule R308. -/
theorem test_sbinv : after (.sbinv 1 0) State.reset (fun t => (t.ec, t.ew)) = some (4, 0x42100000) := by decide +kernel
theorem test_sbinv_priority :
    answerOf (.sbinv 4 9) State.reset = some (2, 0) ∧ answerOf (.sbinv 5 0) State.reset = some (3, 0) := by decide +kernel
/-- V26: on the all-zero table the last input wins, and an entry never written is 0x00. -/
theorem test_sbinvl : after (.sbinvl 1 0) State.reset (fun t => (entry t.tbl[1] 0, entry t.tbl[1] 5)) = some (0xFF, 0) := by
  decide +kernel
/-- V27. -/
theorem test_mpre : after (.mpre 0) State.reset (fun t => (t.mat, t.cst)) =
    some (#v[0xF8, 0x7C, 0x3E, 0x1F, 0x8F, 0xC7, 0xE3, 0xF1], 0x63) := by decide
theorem test_mpre_range : answerOf (.mpre 2) State.reset = some (2, 0) := by decide

/-- V30. -/
theorem test_subb : after (.subb 4) (State.reset.withBlk counting) (fun t => (t.blk[0], t.blk[7], t.blk[15])) =
    some (0x63, 0xC5, 0x76) := by decide +kernel
/-- V31. -/
theorem test_shrow : after .shrow (State.reset.withBlk counting) (·.blk) =
    some #v[0x00, 0x05, 0x0a, 0x0f, 0x04, 0x09, 0x0e, 0x03, 0x08, 0x0d, 0x02, 0x07, 0x0c, 0x01, 0x06, 0x0b] := by decide +kernel
/-- V32. -/
theorem test_ishrow : after .ishrow (State.reset.withBlk counting) (·.blk) =
    some #v[0x00, 0x0d, 0x0a, 0x07, 0x04, 0x01, 0x0e, 0x0b, 0x08, 0x05, 0x02, 0x0f, 0x0c, 0x09, 0x06, 0x03] := by decide +kernel
/-- V33. -/
theorem test_mixc : after .mixc (State.reset.withBlk
      #v[0xdb, 0x13, 0x53, 0x45, 0xf2, 0x0a, 0x22, 0x5c, 0x01, 0x01, 0x01, 0x01, 0xc6, 0xc6, 0xc6, 0xc6]) (·.blk) =
    some #v[0x8e, 0x4d, 0xa1, 0xbc, 0x9f, 0xdc, 0x58, 0x9d, 0x01, 0x01, 0x01, 0x01, 0xc6, 0xc6, 0xc6, 0xc6] := by
  decide +kernel
/-- V34. -/
theorem test_imixc : after .imixc (State.reset.withBlk counting) (·.blk) =
    some #v[0x0a, 0x0f, 0x08, 0x0d, 0x0e, 0x0b, 0x0c, 0x09, 0x02, 0x07, 0x00, 0x05, 0x06, 0x03, 0x04, 0x01] := by decide +kernel
/-- A state with the zero key expanded. -/
def keyed : State := (State.reset.withRk (keyExpansion State.reset.key)).withSr 2
/-- V35. -/
theorem test_addrk : after (.addrk 1) (keyed.withBlk counting) (·.blk) =
    some #v[0x11, 0x13, 0x11, 0x17, 0x11, 0x13, 0x11, 0x1f, 0x11, 0x13, 0x11, 0x17, 0x11, 0x13, 0x11, 0x2f] := by decide +kernel
theorem test_addrk_faults : answerOf (.addrk 0) State.reset = some (5, 0) ∧ answerOf (.addrk 11) State.reset = some (2, 0) := by
  decide

/-- V40: round keys 1 and 10 of the zero key. -/
theorem test_keyexp : after .keyexp State.reset (fun t => (t.rk[1], t.rk[10], t.sr)) =
    some (#v[0x11, 0x12, 0x13, 0x14, 0x15, 0x16, 0x17, 0x18, 0x19, 0x1a, 0x1b, 0x1c, 0x1d, 0x1e, 0x1f, 0x20],
      #v[0xbb, 0xb1, 0xbf, 0xb1, 0xbb, 0xb1, 0xa7, 0x91, 0x8b, 0x71, 0x6f, 0x51, 0x4b, 0x31, 0x27, 0x11], 2) := by
  decide +kernel
/-- V42. -/
theorem test_encb : after (.encb 4) keyed (·.blk) =
    some #v[0x34, 0x36, 0x6e, 0x5f, 0xa8, 0x30, 0x3c, 0x68, 0x3f, 0x7e, 0x88, 0x62, 0x39, 0x03, 0x35, 0xf1] := by
  decide +kernel
theorem test_encb_faults : answerOf (.encb 4) State.reset = some (5, 0) ∧ answerOf (.encb 9) State.reset = some (2, 0) := by
  decide +kernel
/-- V44. -/
theorem test_decb : after (.decb 5) (keyed.withBlk
      #v[0x34, 0x36, 0x6e, 0x5f, 0xa8, 0x30, 0x3c, 0x68, 0x3f, 0x7e, 0x88, 0x62, 0x39, 0x03, 0x35, 0xf1]) (·.blk) =
    some (Vector.replicate 16 0) := by decide +kernel
theorem test_decb_fault : answerOf (.decb 5) State.reset = some (5, 0) := by decide +kernel

/-- V62: the first entries WLOAD writes. -/
theorem test_wload : after (.wload 4 1) State.reset (fun t => (t.w[0], t.w[1], t.w[2])) = some (0xFFFF, 1, 0xFFFF) := by
  decide +kernel
/-- Rule R224, `wrap16`: one butterfly of 32767 and 1 wraps to the negative side (V63). -/
theorem test_fwht_wrap :
    entry (butterflyStage (· + ·) (· - ·) (setEntry (setEntry State.reset.w 0 0x7FFF) 1 1) 1) 0 = 0x8000 := by decide +kernel
/-- Rule R226: the magnitude of -32768 fits `q`. -/
theorem test_wmax : after .wmax (State.reset.withW (setEntry State.reset.w 9 0x8000)) (·.q) = some 32768 := by decide +kernel
/-- The all-zero table has the one fixed point 0 (V61). -/
theorem test_fixp : after (.fixp 0) State.reset (·.q) = some 1 := by decide +kernel
/-- The Hamming weights SAC adds and the parities of the Walsh spectrum (rule R10). -/
theorem test_hw : hw 0xB7 = 6 ∧ parity 0xB7 = false ∧ hw 0xFF = 8 ∧ parity 0x80 = true := by decide
/-- The slots of the metric commands (rule R303), and the masks of rules R228 and R245. -/
theorem test_metric_range :
    answerOf (.nl 8) small = some (2, 0) ∧ answerOf (.lap 8) small = some (2, 0) ∧ answerOf (.dap 8) small = some (2, 0) ∧
    answerOf (.du 8) small = some (2, 0) ∧ answerOf (.ad 8) small = some (2, 0) ∧ answerOf (.bic 8) small = some (2, 0) := by
  decide
theorem test_metric_masks : nonzeroBytes.length = 255 ∧ pairMasks.length = 28 ∧ pairMasks.head? = some 3 := by decide +kernel

/-! ### Step, reset, host procedures -/

theorem reset_inv : Safety.Inv State.reset := by
  refine ⟨by decide, fun h => absurd h (by decide), by decide, by decide, by decide⟩

/-- V70: an illegal word is recorded and answered; the next word is still waiting. -/
theorem test_step_illegal :
    step { small with cmds := [0x5500010B, 0] } =
      .next { small with cmds := [0], ec := 1, ew := 0x5500010B, responses := [⟨1, 0⟩] } := by rfl

theorem test_step_fetch_word :
    (match step (State.reset.withFetchWord 32 0x01100057) with
      | .next t => some (t.reg 1, t.cmds)
      | .fault _ => none
      | .refused _ => none) = some (0x57, []) := by decide

/-- V50, V52, V55. -/
theorem test_text :
    bytesToHex [0x00, 0x0f, 0xa0, 0xff] = "000fa0ff".toList ∧ hexToBytes "000FA0ff".toList = some [0x00, 0x0f, 0xa0, 0xff] ∧
    hexToBytes "0g".toList = none ∧ stringToBytes "kéy".toList = [0x6b, 0xc3, 0xa9, 0x79] ∧
    bytesToString [0xc3] = none ∧ bytesToString [0xc3, 0xa9] = some ['é'] := by decide +kernel

theorem test_padding :
    pad [1] = 1 :: List.replicate 15 15 ∧ unpad [1, 2, 3, 2] = [1, 2] ∧ unpad [1, 2, 3, 0x11] = [1, 2, 3, 0x11] ∧
    unpad [5, 5, 5] = [5, 5, 5] ∧ unpad [] = [] := by decide +kernel

/-- The examples of rule R79. -/
theorem test_assembly :
    assembleLine "GFMUL x3, x1, x2 ; a product".toList = some [.gfmul 3 1 2] ∧
    assembleLine "TWI t0, 0x53, 0xED".toList = some [.twi 0 0x53 0xED] ∧
    assembleLine "RKRD 3, 15".toList = some [.rkrd 3 15] ∧ assembleLine "LDI x16, 1".toList = none := by decide +kernel

/-! ### Witnesses: for each statement with hypotheses, a state and operands that meet them, each clause at a boundary -/

open Sys2Proof.Statements

/-- The identity table. -/
def identity : Table := tabulateBytes id

theorem entry_identity (v : Byte) : entry identity v = v := entry_tabulateBytes id v

theorem identity_permutation : Permutation identity :=
  ⟨fun a b h => by simpa [entry_identity] using h, fun b => ⟨b, entry_identity b⟩⟩

/-- The table of a slot after reset. -/
def zeroTable : Table := Vector.replicate 256 0

theorem entry_zeroTable (v : Byte) : entry zeroTable v = 0 := by simp [entry, zeroTable]

theorem zeroTable_not_permutation : ¬ Permutation zeroTable := fun h =>
  absurd (@h.1 0 1 (by simp [entry_zeroTable])) (by decide)

/-- A state with the identity table in slot 0, what `invert` makes of it in slot 1, and the zero key expanded. -/
def tabled : State := keyed.withTbl #v[identity, invert identity, zeroTable, zeroTable]

/-- The second of four tables. -/
theorem table_one (a b c d : Table) : (keyed.withTbl #v[a, b, c, d]).table? 1 = some b := rfl

theorem witness_StepRunsTheDecodedCommand :
    State.reset.cmds = [] ∧ (State.reset.withCmds [0x5A0F0000]).cmds = 0x5A0F0000 :: [] ∧
    decode 0x5A0F0000 = .ok (.decb 15) ∧ decode 0x5B000000 = .error .unassignedOpcode := ⟨rfl, rfl, by decide, by decide⟩

theorem witness_WordOfNoRowIsIllegal :
    (State.reset.withCmds [0x70000000]).cmds = 0x70000000 :: [] ∧
    ¬ ∃ m : Mnemonic, 0x70000000#32 &&& m.format.mask = m.matchWord := by
  refine ⟨rfl, ?_⟩
  rintro ⟨m, h⟩
  revert h
  cases m <;> decide

theorem witness_EncodeDecodeRoundTrip : decode 0x206FFFFF = .error .mustBeZeroBitSet ∧ decode 0x2060FFFF = .ok (.twi 6 0xFF 0xFF) := by
  decide

/-- StepKeepsStatusAndFaultRecordLegal and StepKeepsEveryInvariant. -/
theorem witness_steps :
    Safety.Inv (State.reset.withCmds [0x01F000FF]) ∧
    ∃ t, step (State.reset.withCmds [0x01F000FF]) = .next t ∧ t.reg 15 = 0xFF :=
  ⟨⟨by decide, fun h => absurd h (by decide), by decide, by decide, by decide⟩, _, rfl, by decide⟩

theorem witness_StepKeepsRoundKeysFresh :
    Safety.RoundKeysFresh (keyed.withCmds [0x14000F00]) ∧ rkvFlag keyed.sr = true ∧
    ∃ t, step (keyed.withCmds [0x1400000F]) = .next t ∧ rkvFlag t.sr = false :=
  ⟨fun _ => rfl, by decide, _, rfl, by decide⟩

theorem witness_EveryWordGetsExactlyOneResponse : (State.reset.withCmds [0xFFFFFFFF, 0]).cmds = 0xFFFFFFFF :: [0] := rfl

/-- An edge that accepts a word and one with `rst`. -/
theorem witness_HandshakeAnswersEachAcceptedWordOnce :
    (∀ i ∈ [(⟨false, true, 0, true, true⟩ : PortInputs)], i.rst = false) ∧
    (Chip.clock ⟨State.reset, .ready⟩ ⟨false, true, 0, true, true⟩).phase = .running 0 ∧
    (⟨true, true, 0, true, true⟩ : PortInputs).rst = true := by
  refine ⟨?_, rfl, rfl⟩
  simp

theorem witness_CommandFaultsExactlyAsTheRulesSay :
    faultOf (.brd 16) State.reset = some 2 ∧ faultOf (.sbgen 4) State.reset = some 3 ∧
    faultOf (.addrk 10) State.reset = some 5 ∧ faultOf (.brd 15) State.reset = none ∧ Instr.nop ≠ .clrf := by decide

theorem witness_FaultChangesOnlyTheRecord :
    ∃ t r, step (State.reset.withCmds [0x09000000]) = .next t ∧ t.responses = State.reset.responses ++ [r] ∧ r.status ≠ 0 :=
  ⟨_, ⟨1, 0⟩, rfl, rfl, by decide⟩

theorem witness_BlockMovesTouchOneByte : (15#8).toNat = (15 : Fin 16).val ∧ 15 < (16#8).toNat := by decide

theorem witness_KeyMovesGuardTheRoundKeys :
    (15#8).toNat = (15 : Fin 16).val ∧ (10#4).toNat = (10 : Fin 11).val ∧ 15 < (16#8).toNat ∧ 10 < (11#4).toNat := by decide

theorem witness_MatrixMovesTouchOneRow : (7#8).toNat = (7 : Fin 8).val ∧ 7 < (8#8).toNat := by decide

theorem witness_SlotsAndPresetsNameTheirTables :
    (3#4).toNat = (3 : Fin 4).val ∧ (4#4).toNat = 4 ∧ (7#4).toNat = 7 ∧ 7 < (8#4).toNat ∧
    (0#8).toNat = 0 ∧ (1#8).toNat = 1 ∧ 1 < (2#8).toNat := by decide

/-- The slot hypotheses of TableMovesTouchOneTable, SbgenBuildsTheAffineTable, SbchkDecidesBijectivity,
SbinvInvertsExactlyPermutations, SbinvlLastWriteWins, SubbSubstitutesEachByte, WloadWritesTheComponentFunction and of the
metric statements (NlAndBicTakeTheSmallestDistance, SacAndFixpCount, LapTakesTheLargestBias, DapAndDuTakeTheLargestCount,
AdTakesTheLargestDegree): the last writable slot, the read-only ones at both ends, the first that does not exist, and a
source table at both ends. -/
theorem witness_slots :
    (3#4).toNat = (3 : Fin 4).val ∧ (4 ≤ (4#4).toNat ∧ (4#4).toNat ≤ 7) ∧ (4 ≤ (7#4).toNat ∧ (7#4).toNat ≤ 7) ∧
    7 < (8#4).toNat ∧ tabled.table? 0 = some identity ∧ tabled.table? 7 = some Config.k44Inv := by
  refine ⟨by decide, by decide, by decide, by decide, rfl, rfl⟩

theorem witness_GfMulCommutesAndInverseInverts : (0x01 : Byte) ≠ 0 ∧ (0xFF : Byte) ≠ 0 := by decide

theorem witness_GfMulAssociatesDistributesHasUnitAndAtMostOneInverse : gfMul 0x53 0xCA = 1 := by decide

theorem witness_SbchkDecidesBijectivity : Permutation identity ∧ ¬ Permutation zeroTable :=
  ⟨identity_permutation, zeroTable_not_permutation⟩

theorem witness_SbinvInvertsExactlyPermutations :
    tabled.table? 0 = some identity ∧ Permutation identity ∧ tabled.table? 2 = some zeroTable ∧ ¬ Permutation zeroTable :=
  ⟨rfl, identity_permutation, rfl, zeroTable_not_permutation⟩

theorem witness_SbinvlLastWriteWins :
    tabled.table? 2 = some zeroTable ∧ (∃ x, entry zeroTable x = 0) ∧ ¬ ∃ x, entry zeroTable x = 0xFF :=
  ⟨rfl, ⟨0, entry_zeroTable 0⟩, by rintro ⟨x, h⟩; rw [entry_zeroTable] at h; exact absurd h (by decide)⟩

theorem witness_AddrkXorsTheRoundKey :
    (10#8).toNat = (10 : Fin 11).val ∧ rkvFlag tabled.sr = true ∧ rkvFlag State.reset.sr = false ∧ 10 < (11#8).toNat := by
  decide

/-- EncbRunsTheFortyCommands and DecbRunsTheFortyCommands. -/
theorem witness_EncbAndDecb :
    (7#4).toNat ≤ 7 ∧ rkvFlag tabled.sr = true ∧ rkvFlag State.reset.sr = false ∧ 7 < (8#4).toNat := by decide

theorem witness_RoundStagesUndoEachOther :
    (10#8).toNat ≤ 10 ∧ rkvFlag tabled.sr = true ∧ tabled.table? 0 = some identity ∧
    (∀ x, entry identity (entry identity x) = x) :=
  ⟨by decide, by decide, rfl, fun x => by simp [entry_identity]⟩

theorem witness_DecbUndoesEncb :
    tabled.table? 0 = some identity ∧ tabled.table? 1 = some (invert identity) ∧ Permutation identity ∧
    rkvFlag tabled.sr = true :=
  ⟨rfl, table_one _ _ _ _, identity_permutation, by decide⟩

theorem witness_MixColumnsMultipliesByItsMatrix :
    ∃ (i : Instr) (m : Fin 4 → Fin 4 → Byte), i = .mixc ∧ m = ![![2, 3, 1, 1], ![1, 2, 3, 1], ![1, 1, 2, 3], ![3, 1, 1, 2]] :=
  ⟨_, _, rfl, rfl⟩

theorem witness_MetricsStayInTheirRanges : (0#4).toNat ≤ 7 ∧ (7#4).toNat ≤ 7 := by decide

theorem witness_AssemblerReadsWhatIsWritten :
    ∀ t, Operand.slot t ∈ operandsOf (.tld 15 7 15) → t.toNat < 8 := by
  intro t h
  simp [operandsOf] at h
  subst h
  decide

theorem witness_DecryptDataUndoesEncryptData :
    tabled.table? (slotOf 0) = some identity ∧ (State.reset.withTbl tabled.tbl).table? (slotOf 0) = some identity ∧
    (∀ x, entry identity (entry identity x) = x) :=
  ⟨rfl, rfl, fun x => by simp [entry_identity]⟩

theorem witness_MalformedCiphertextTouchesNothing :
    (List.replicate 15 (0 : Byte)).length % 16 ≠ 0 ∧ "abc".toList.length % 2 = 1 ∧ ∃ c ∈ "zz".toList, hexValue c = none :=
  ⟨by decide, by decide, 'z', by decide, by decide⟩

theorem witness_SboxProceduresComputeTheirTables : Permutation identity ∧ ¬ Permutation zeroTable :=
  witness_SbchkDecidesBijectivity

theorem witness_StatisticsDivideTheMetrics : tabled.table? (slotOf 0) = some identity ∧ (slotOf 7).toNat = 7 := ⟨rfl, by decide⟩

end Sys2Proof.Tests
end

/-! PROOFS. The command port (rules R17, R78, R302, R319, R338): what a step does with the next word, that every command
answers once, and that a run answers its words one for one. -/
namespace Sys2Proof.Machine

/-! ### One step -/

/-- The command meets the port with the word already taken off the queue (rules R17, R78). -/
theorem step_of_decode_ok {s : State} {c : Word} {rest : List Word} {i : Instr} (hs : s.cmds = c :: rest)
    (hc : decode c = .ok i) : step s = exec i (s.withCmds rest) := by
  simp [step, serve_cons hs, deliver, hc]

theorem step_of_decode_error {s : State} {c : Word} {rest : List Word} {e : DecodeError} (hs : s.cmds = c :: rest)
    (hc : decode c = .error e) : step s = .next ((s.withCmds rest).faulted .illegalCommand c) := by
  simp [step, serve_cons hs, deliver, hc, raise]

/-- Settles O2: a step is the port's turn, and the word decides which arm of `deliver` runs. -/
theorem stepRunsTheDecodedCommand : Obligations.StepRunsTheDecodedCommand := fun _ =>
  ⟨serve_nil, fun _ _ hs => ⟨fun _ hc => step_of_decode_ok hs hc, fun _ hc => step_of_decode_error hs hc⟩⟩

/-! ### Every command answers once -/

/-- The outcome is a next state that has given exactly one response more than `s` and left the queue alone. -/
def Answers (s : State) (o : Result) : Prop :=
  ∃ t r, o = .next t ∧ t.cmds = s.cmds ∧ t.responses = s.responses ++ [r]

@[simp] theorem answers_respond {s u : State} {v : Word} :
    Answers s (respond u v) ↔ u.cmds = s.cmds ∧ u.responses = s.responses := by
  constructor
  · rintro ⟨t, r, ho, hc, hr⟩
    obtain rfl := respond_eq_next.mp ho
    exact ⟨hc, List.append_inj_left' hr rfl⟩
  · rintro ⟨hc, hr⟩
    exact ⟨_, ⟨0, v⟩, rfl, hc, by simp [hr]⟩

@[simp] theorem answers_done {s u : State} :
    Answers s (done u) ↔ u.cmds = s.cmds ∧ u.responses = s.responses := answers_respond

@[simp] theorem answers_raise (s : State) (f : FaultCode) (c : Word) : Answers s (raise f c s) :=
  ⟨_, ⟨f.code, 0⟩, rfl, rfl, rfl⟩

@[simp] theorem answers_metric (f : Table → Nat) (c : Word) (ts : SlotNum) (s : State) :
    Answers s (metric f c ts s) := by
  unfold metric
  split <;> simp [respondQ]

/-- Rule R12: every command ends by responding once, whether it completes or faults. The commands are grouped by the checks
they make on the way. -/
theorem exec_answers (i : Instr) (s : State) : Answers s (exec i s) := by
  cases i with
  | nop | ldi | mov | clrf | cwi => simp [exec, execNop, execLdi, execMov, execClrf, execCwi]
  | rdx | rdq | rdsr | rdec | rdew | crd | wrd =>
    simp [exec, execRdx, execRdq, execRdsr, execRdec, execRdew, execCrd, execWrd]
  | gfmul | gfinv | xor => simp [exec, execGfmul, execGfinv, execXor]
  | shrow | ishrow | mixc | imixc | keyexp =>
    simp [exec, execShrow, execIshrow, execMixc, execImixc, execKeyexp]
  | fwht | wmax => simp [exec, execFwht, execWmax, respondQ]
  | nl | sac | lap | dap | du | ad | bic | fixp =>
    simp [exec, execNl, execSac, execLap, execDap, execDu, execAd, execBic, execFixp]
  | bwi | brd | bst | bld | kwi | krd | rkrd | mwi | mrd | mpre =>
    simp only [exec, execBwi, execBrd, execBst, execBld, execKwi, execKrd, execRkrd, execMwi, execMrd, execMpre]
    split <;> simp
  | twi | tst | tcpy | sbgen | sbinvl =>
    simp only [exec, execTwi, execTst, execTcpy, execSbgen, execSbinvl]
    split <;> simp
  | trd | tld | subb | sbchk | wload =>
    simp only [exec, execTrd, execTld, execSubb, execSbchk, execWload]
    split <;> simp
  | addrk | encb | decb | sbinv =>
    simp only [exec, execAddrk, execEncb, execDecb, execSbinv]
    split
    · simp
    · split <;> simp

/-- Rule R338: an accepted word, decodable or not, is answered once. -/
theorem deliver_answers (c : Word) (s : State) : Answers s (deliver c s) := by
  obtain ⟨_, -, h⟩ | ⟨i, -, h⟩ := deliver_cases c s
  · exact h ▸ answers_raise s .illegalCommand c
  · exact h ▸ exec_answers i s

/-- A step with a word waiting takes that word and answers it once. -/
theorem step_answers {s : State} {c : Word} {rest : List Word} (hs : s.cmds = c :: rest) :
    ∃ t r, step s = .next t ∧ t.cmds = rest ∧ t.responses = s.responses ++ [r] := by
  rw [step, serve_cons hs]
  exact deliver_answers c (s.withCmds rest)

/-! ### A run -/

/-- A run goes on from the next state of its first step. -/
theorem run_succ_of_step (M : Host.Core) {s t : M.State} (h : M.step s = .next t) (n : Nat) :
    M.run (n + 1) s = M.run n t := by
  rw [Host.Core.run, h]

/-- Running the whole queue, by induction on the words waiting. -/
theorem run_answers_queue (ws : List Word) (s : State) (hs : s.cmds = ws) :
    ∃ t, Sys2Proof.core.run ws.length s = .next t ∧ t.cmds = [] ∧
      ∃ rs : List Response, t.responses = s.responses ++ rs ∧ rs.length = ws.length := by
  induction ws generalizing s with
  | nil => exact ⟨s, rfl, hs, [], by simp, rfl⟩
  | cons c rest ih =>
    obtain ⟨u, r, hstep, hu, hur⟩ := step_answers hs
    obtain ⟨t, hrun, ht, rs, hrs, hlen⟩ := ih u hu
    exact ⟨t, (run_succ_of_step Sys2Proof.core hstep _).trans hrun, ht, r :: rs, by simp [hrs, hur], by simp [hlen]⟩

/-- Settles O14: every step of the run answers the word it takes. -/
theorem runAnswersEveryWord : Obligations.RunAnswersEveryWord := fun s => run_answers_queue s.cmds s rfl

end Sys2Proof.Machine

/-! PROOFS. The ports of the unit (rules R17, R330, R338, R341): the handshake follows the run over the accepted words. -/
namespace Sys2Proof.Machine

theorem transactAll_cons (c : Word) (ws : List Word) (s : State) :
    transactAll (c :: ws) s =
      ((transactAll ws (transact c s).1).1, (transact c s).2 :: (transactAll ws (transact c s).1).2) := rfl

/-- A run over one word more. -/
theorem transactAll_concat (ws : List Word) (c : Word) (s : State) :
    transactAll (ws ++ [c]) s =
      ((transact c (transactAll ws s).1).1, (transactAll ws s).2 ++ [(transact c (transactAll ws s).1).2]) := by
  induction ws generalizing s with
  | nil => rfl
  | cons d rest ih => simp only [List.cons_append, transactAll_cons, ih]

/-- The unit has come from `s` by running the words `ws` and giving the responses `rs`, but for what its phase says is still
outstanding: an accepted word not yet run, or a response not yet taken. -/
def Chip.Follows (s : State) (u : Chip) (ws : List Word) (rs : List Response) : Prop :=
  match u.phase with
  | .ready => transactAll ws s = (u.state, rs)
  | .running c => ∃ vs, ws = vs ++ [c] ∧ transactAll vs s = (u.state, rs)
  | .responding r => transactAll ws s = (u.state, rs ++ [r])

/-- One rising edge without `rst` keeps it (rules R338, R341), phase by phase. -/
theorem Chip.Follows.clock {s : State} {u : Chip} {ws : List Word} {rs : List Response} (h : u.Follows s ws rs)
    {i : PortInputs} (hrst : i.rst = false) :
    (u.clock i).Follows s (ws ++ (u.accepted? i).toList) (rs ++ (u.taken? i).toList) := by
  obtain ⟨t, phase⟩ := u
  cases phase with
  | ready =>
    cases hv : i.cmdValid <;>
      simpa [Follows, Chip.clock, accepted?, taken?, response?, cmdReady, hrst, hv] using h
  | running c =>
    obtain ⟨vs, rfl, hvs⟩ := h
    cases hf : i.finish
    · simpa [Follows, Chip.clock, accepted?, taken?, response?, cmdReady, hrst, hf] using hvs
    · simpa [Follows, Chip.clock, accepted?, taken?, response?, cmdReady, hrst, hf] using
        (transactAll_concat vs c s).trans (by rw [hvs])
  | responding r =>
    cases hr : i.rspReady <;>
      simpa [Follows, Chip.clock, accepted?, taken?, response?, cmdReady, hrst, hr] using h

/-- Any number of rising edges without `rst` keep it: the words and responses of the edges come after those so far. -/
theorem Chip.Follows.clockAll {s : State} {u : Chip} {ws : List Word} {rs : List Response} (h : u.Follows s ws rs)
    {ins : List PortInputs} (hrst : ∀ i ∈ ins, i.rst = false) :
    (Chip.clockAll ins u).1.Follows s (ws ++ (Chip.clockAll ins u).2.1) (rs ++ (Chip.clockAll ins u).2.2) := by
  induction ins generalizing u ws rs with
  | nil => simpa [Chip.clockAll] using h
  | cons i rest ih =>
    obtain ⟨hi, hrest⟩ := List.forall_mem_cons.mp hrst
    simpa [Chip.clockAll] using ih (h.clock hi) hrest

/-- An idle unit has run nothing yet. -/
theorem Chip.follows_idle (s : State) : Chip.Follows s ⟨s, .ready⟩ [] [] := rfl

/-- Rule R330: an edge with `rst` resets the unit, accepts no word and gives no response. -/
theorem Chip.clock_rst (u : Chip) {i : PortInputs} (h : i.rst = true) :
    u.clock i = ⟨State.reset, .ready⟩ ∧ u.accepted? i = none ∧ u.taken? i = none := by
  simp [Chip.clock, accepted?, cmdReady, taken?, response?, h]

/-- Settles O15: what an idle unit has run so far follows the accepted words along every sequence of edges. -/
theorem handshakeAnswersEachAcceptedWordOnce : Obligations.HandshakeAnswersEachAcceptedWordOnce :=
  ⟨fun _ s hrst => ⟨_, _, _, rfl, (Chip.follows_idle s).clockAll hrst⟩, fun u _ h => u.clock_rst h⟩

end Sys2Proof.Machine

/-! PROOFS. The field of rules R140 to R143: functions on bytes that respect XOR are fixed by the eight one-bit bytes; the
multiplier is such a function in each operand, and a byte has at most one inverse. -/
namespace Sys2Proof.Machine

/-! ### Functions on bytes that respect XOR -/

/-- The function is linear over GF(2). -/
def XorLinear (f : Byte → Byte) : Prop := ∀ a b, f (a ^^^ b) = f a ^^^ f b

theorem XorLinear.map_zero {f : Byte → Byte} (hf : XorLinear f) : f 0 = 0 := by simpa using hf 0 0

theorem XorLinear.id : XorLinear fun v => v := fun _ _ => rfl

theorem XorLinear.comp {f g : Byte → Byte} (hf : XorLinear f) (hg : XorLinear g) : XorLinear fun v => f (g v) :=
  fun a b => (congrArg f (hg a b)).trans (hf _ _)

theorem XorLinear.xor {f g : Byte → Byte} (hf : XorLinear f) (hg : XorLinear g) : XorLinear fun v => f v ^^^ g v := by
  intro a b
  simp only [hf a b, hg a b]
  ac_rfl

theorem getLsbD_of_toNat_lt {v : Byte} {n i : Nat} (hv : v.toNat < 2 ^ n) (hi : n ≤ i) : v.getLsbD i = false := by
  rw [← BitVec.testBit_toNat]
  exact Nat.testBit_lt_two_pow (hv.trans_le (Nat.pow_le_pow_right (by decide) hi))

/-- Clearing the top bit of a number below `2 ^ (n + 1)`. -/
theorem toNat_xor_bit_lt {v : Byte} {n : Nat} (hn : n < 8) (hv : v.toNat < 2 ^ (n + 1)) (hbit : v.getLsbD n = true) :
    (v ^^^ 1#8 <<< n).toNat < 2 ^ n := by
  apply Nat.lt_pow_two_of_testBit
  intro i hi
  rw [BitVec.testBit_toNat]
  obtain rfl | hlt := hi.eq_or_lt
  · simp [hbit, hn]
  · simp [getLsbD_of_toNat_lt hv hlt]
    omega

/-- A linear function is 0 everywhere when it is 0 on the eight one-bit bytes: a byte is cleared from the top bit down. -/
theorem XorLinear.eq_zero {f : Byte → Byte} (hf : XorLinear f) (h : ∀ k : Fin 8, f (1#8 <<< k.val) = 0) (v : Byte) :
    f v = 0 := by
  have below : ∀ n ≤ 8, ∀ v : Byte, v.toNat < 2 ^ n → f v = 0 := by
    intro n hn
    induction n with
    | zero =>
      intro v hv
      obtain rfl : v = 0 := BitVec.eq_of_toNat_eq (by simpa using hv)
      exact hf.map_zero
    | succ n ih =>
      intro v hv
      cases hbit : v.getLsbD n with
      | true =>
        have hlow := ih (by omega) _ (toNat_xor_bit_lt hn hv hbit)
        rw [hf, h ⟨n, hn⟩] at hlow
        simpa using hlow
      | false =>
        refine ih (by omega) v (Nat.lt_pow_two_of_testBit _ fun i hi => ?_)
        obtain rfl | hlt := hi.eq_or_lt
        · exact hbit
        · exact getLsbD_of_toNat_lt hv hlt
  exact below 8 le_rfl v v.isLt

/-- Linear functions that agree on the eight one-bit bytes are the same. -/
theorem XorLinear.ext {f g : Byte → Byte} (hf : XorLinear f) (hg : XorLinear g)
    (h : ∀ k : Fin 8, f (1#8 <<< k.val) = g (1#8 <<< k.val)) (v : Byte) : f v = g v :=
  BitVec.xor_eq_zero_iff.mp ((hf.xor hg).eq_zero (fun k => by simp [h]) v)

theorem cond_xor_cond (p q : Bool) (a : Byte) :
    (bif p ^^ q then a else 0) = (bif p then a else 0) ^^^ (bif q then a else 0) := by
  cases p <;> cases q <;> simp

theorem cond_xor (p : Bool) (a b : Byte) :
    (bif p then a ^^^ b else 0) = (bif p then a else 0) ^^^ (bif p then b else 0) := by
  cases p <;> simp

/-! ### The multiplier (rule R141) -/

/-- One shift-and-reduce of the multiplier's loop: the product by 2. -/
def xtime (a : Byte) : Byte := bif a.getLsbD 7 then (a <<< 1) ^^^ 0x1B else a <<< 1

theorem xtime_eq (a : Byte) : xtime a = a <<< 1 ^^^ bif a.getLsbD 7 then 0x1B else 0 := by
  unfold xtime
  cases a.getLsbD 7 <;> simp

theorem xtime_linear : XorLinear xtime := by
  intro a b
  simp only [xtime_eq, BitVec.getLsbD_xor, BitVec.shiftLeft_xor_distrib, cond_xor_cond]
  ac_rfl

theorem gfMulLoop_succ (n : Nat) (p a b : Byte) :
    gfMulLoop (n + 1) p a b = gfMulLoop n (bif b.getLsbD 0 then p ^^^ a else p) (xtime a) (b >>> 1) := rfl

/-- The product so far is a summand of the result. -/
theorem gfMulLoop_eq_xor (n : Nat) (p a b : Byte) : gfMulLoop n p a b = p ^^^ gfMulLoop n 0 a b := by
  induction n generalizing p a b with
  | zero => simp [gfMulLoop]
  | succ n ih =>
    rw [gfMulLoop_succ, gfMulLoop_succ, ih, ih (bif b.getLsbD 0 then 0 ^^^ a else 0)]
    cases b.getLsbD 0 <;> simp [BitVec.xor_assoc]

/-- The loop from product 0, one iteration at a time. -/
theorem gfMulLoop_zero_succ (n : Nat) (a b : Byte) :
    gfMulLoop (n + 1) 0 a b = (bif b.getLsbD 0 then a else 0) ^^^ gfMulLoop n 0 (xtime a) (b >>> 1) := by
  rw [gfMulLoop_succ, gfMulLoop_eq_xor]
  simp

theorem gfMulLoop_linear_right (n : Nat) (a : Byte) : XorLinear (gfMulLoop n 0 a) := by
  intro b c
  induction n generalizing a b c with
  | zero => simp [gfMulLoop]
  | succ n ih =>
    simp only [gfMulLoop_zero_succ, BitVec.ushiftRight_xor_distrib, ih, BitVec.getLsbD_xor, cond_xor_cond]
    ac_rfl

theorem gfMulLoop_linear_left (n : Nat) (b : Byte) : XorLinear fun a => gfMulLoop n 0 a b := by
  intro a c
  induction n generalizing a b c with
  | zero => simp [gfMulLoop]
  | succ n ih =>
    simp only [gfMulLoop_zero_succ, xtime_linear a c, ih _ _ _, cond_xor]
    ac_rfl

theorem gfMulLoop_xtime (n : Nat) (a b : Byte) : gfMulLoop n 0 (xtime a) b = xtime (gfMulLoop n 0 a b) := by
  induction n generalizing a b with
  | zero => exact xtime_linear.map_zero.symm
  | succ n ih =>
    rw [gfMulLoop_zero_succ, gfMulLoop_zero_succ, xtime_linear, ih]
    cases b.getLsbD 0 with
    | true => rfl
    | false => rw [cond_false, cond_false, xtime_linear.map_zero]

theorem gfMul_linear_right (a : Byte) : XorLinear (gfMul a) := gfMulLoop_linear_right 8 a

theorem gfMul_linear_left (b : Byte) : XorLinear fun a => gfMul a b := gfMulLoop_linear_left 8 b

theorem gfMul_comm (a b : Byte) : gfMul a b = gfMul b a := by
  refine (gfMul_linear_left b).ext (gfMul_linear_right b) (fun k => ?_) a
  refine (gfMul_linear_right _).ext (gfMul_linear_left _) (fun j => ?_) b
  revert j k
  decide +kernel

theorem xtime_gfMul_left (a b : Byte) : gfMul (xtime a) b = xtime (gfMul a b) := gfMulLoop_xtime 8 a b

theorem xtime_gfMul_right (a b : Byte) : gfMul a (xtime b) = xtime (gfMul a b) := by
  rw [gfMul_comm, xtime_gfMul_left, gfMul_comm]

@[simp] theorem gfMul_one (a : Byte) : gfMul a 1#8 = a :=
  (gfMul_linear_left 1).ext XorLinear.id (by decide +kernel) a

@[simp] theorem one_gfMul (a : Byte) : gfMul 1#8 a = a := by rw [gfMul_comm, gfMul_one]

@[simp] theorem zero_gfMul (a : Byte) : gfMul 0#8 a = 0 := (gfMul_linear_left a).map_zero

@[simp] theorem gfMul_zero (a : Byte) : gfMul a 0#8 = 0 := (gfMul_linear_right a).map_zero

/-- The one-bit bytes are the powers of 2 in the field. -/
theorem one_shiftLeft_eq_iterate_xtime (k : Fin 8) : 1#8 <<< k.val = xtime^[k.val] 1 := by
  revert k
  decide

/-- Linear functions that commute with the product by 2 and agree at 1 are the same. -/
theorem XorLinear.ext_xtime {f g : Byte → Byte} (hf : XorLinear f) (hg : XorLinear g)
    (hfx : Function.Commute f xtime) (hgx : Function.Commute g xtime) (h : f 1 = g 1) (v : Byte) : f v = g v := by
  refine hf.ext hg (fun k => ?_) v
  rw [one_shiftLeft_eq_iterate_xtime, (hfx.iterate_right k.val).eq, (hgx.iterate_right k.val).eq, h]

theorem gfMul_assoc (a b c : Byte) : gfMul (gfMul a b) c = gfMul a (gfMul b c) :=
  (gfMul_linear_right (gfMul a b)).ext_xtime ((gfMul_linear_right a).comp (gfMul_linear_right b))
    (xtime_gfMul_right _) (fun v => by simp only [xtime_gfMul_right]) (by simp) c

/-! ### The inverse (rule R143) -/

/-- A byte has at most one inverse. -/
theorem eq_of_gfMul_eq_one {b i j : Byte} (hi : gfMul b i = 1) (hj : gfMul b j = 1) : i = j :=
  calc i = gfMul (gfMul b j) i := by simp [hj]
    _ = gfMul (gfMul b i) j := by rw [gfMul_assoc, gfMul_comm j i, gfMul_assoc]
    _ = j := by simp [hi]

@[simp] theorem gfInv_zero : gfInv 0#8 = 0 := rfl

/-- The search of rule R143 finds the inverse, whichever it is. -/
theorem gfInv_eq_of_gfMul_eq_one {b i : Byte} (h : gfMul b i = 1) : gfInv b = i := by
  have hb : b ≠ 0 := by rintro rfl; simp at h
  have hi : i ≠ 0 := by rintro rfl; simp at h
  have hfound : (nonzeroBytes.find? fun j => gfMul b j == 1).isSome := by
    rw [List.find?_isSome]
    exact ⟨i, mem_nonzeroBytes.mpr hi, by simp [h]⟩
  obtain ⟨j, hj⟩ := Option.isSome_iff_exists.mp hfound
  have hjb : gfMul b j = 1 := by simpa using List.find?_some hj
  rw [gfInv, if_neg hb, hj, Option.getD_some, eq_of_gfMul_eq_one hjb h]

end Sys2Proof.Machine

/-! PROOFS. The S-box generator and checker (rules R160 to R170) on the presets: the AES preset generates the printed table,
and the K-44 parameter meets rule R8. -/
namespace Sys2Proof.Machine

/-! ### The affine map (rules R10, R160, R161) -/

theorem countP_bxor_mod_two {α : Type} (p q : α → Bool) (l : List α) :
    l.countP (fun a => p a ^^ q a) % 2 = (l.countP p + l.countP q) % 2 := by
  induction l with
  | nil => rfl
  | cons a l ih =>
    simp only [List.countP_cons]
    cases p a <;> cases q a <;> simp <;> omega

theorem hw_xor_mod_two (a b : Byte) : hw (a ^^^ b) % 2 = (hw a + hw b) % 2 := by
  simpa only [hw, BitVec.getLsbD_xor] using countP_bxor_mod_two a.getLsbD b.getLsbD (List.range 8)

theorem parity_xor (a b : Byte) : parity (a ^^^ b) = (parity a ^^ parity b) := by
  rw [parity, hw_xor_mod_two, Nat.add_mod, parity, parity]
  obtain ha | ha := Nat.mod_two_eq_zero_or_one (hw a) <;>
    obtain hb | hb := Nat.mod_two_eq_zero_or_one (hw b) <;> simp [ha, hb]

theorem getLsbD_foldl_or {α : Type} (f : α → Byte) (l : List α) (o : Byte) (i : Nat) :
    (l.foldl (fun o r => o ||| f r) o).getLsbD i = (o.getLsbD i || l.any fun r => (f r).getLsbD i) := by
  induction l generalizing o with
  | nil => simp
  | cons r l ih => simp [ih, Bool.or_assoc]

/-- Row `r` of the matrix gives output bit `7 - r` (rule R160). -/
theorem getLsbD_matVec (m : Matrix) (v : Byte) (r : Fin 8) :
    (matVec m v).getLsbD (7 - r.val) = parity (m[r] &&& v) := by
  have hbit : ∀ q : Fin 8, ((if parity (m[q] &&& v) then 1#8 else 0#8) <<< (7 - q.val)).getLsbD (7 - r.val) =
      (parity (m[q] &&& v) && decide (q = r)) := by
    intro q
    cases parity (m[q] &&& v)
    · simp
    · revert q r
      decide
  simp only [matVec, getLsbD_foldl_or, hbit]
  rw [Bool.eq_iff_iff]
  simp

theorem and_xor_distrib_left (m a b : Byte) : m &&& (a ^^^ b) = (m &&& a) ^^^ (m &&& b) := by
  apply BitVec.eq_of_getLsbD_eq
  intro i _
  simp [Bool.and_xor_distrib_left]

theorem matVec_linear (m : Matrix) : XorLinear (matVec m) := by
  intro a b
  apply BitVec.eq_of_getLsbD_eq
  intro i hi
  obtain ⟨r, rfl⟩ : ∃ r : Fin 8, i = 7 - r.val := ⟨⟨7 - i, by omega⟩, by simp; omega⟩
  rw [BitVec.getLsbD_xor, getLsbD_matVec, getLsbD_matVec, getLsbD_matVec, and_xor_distrib_left, parity_xor]

@[simp] theorem entry_fromAffine (m : Matrix) (c v : Byte) : entry (fromAffine m c) v = matVec m (gfInv v) ^^^ c :=
  entry_tabulateBytes _ v

/-! ### Tables as lists -/

theorem mem_toList_iff_entry {α : Type} {t : Vector α 256} {a : α} : a ∈ t.toList ↔ ∃ v, entry t v = a := by
  rw [List.mem_iff_getElem]
  constructor
  · rintro ⟨i, hi, rfl⟩
    have hlt : i < 256 := by simpa using hi
    exact ⟨BitVec.ofNat 8 i, by simp [entry, Nat.mod_eq_of_lt hlt]⟩
  · rintro ⟨v, rfl⟩
    exact ⟨v.toNat, by simpa using v.isLt, by simp [entry]⟩

/-- The check of rule R170 finds the permutations of 0..255: on finitely many bytes, onto is enough. -/
theorem isBijection_iff {t : Table} : isBijection t = true ↔ Statements.Permutation t := by
  have honto : isBijection t = true ↔ Function.Surjective (entry t) := by
    simp only [isBijection, List.all_eq_true, List.contains_iff_mem, mem_toList_iff_entry]
    exact ⟨fun h v => h v (mem_allBytes v), fun h v _ => h v⟩
  exact honto.trans ⟨fun h => ⟨Finite.injective_iff_surjective.mpr h, h⟩, fun h => h.2⟩

/-- The inversion loop of rule R165 over a list of inputs of an injective table: each input met so far is at its image. -/
theorem entry_foldl_setEntry {t : Table} (ht : Function.Injective (entry t)) (l : List Byte) (init : Table) {x : Byte}
    (hx : x ∈ l ∨ entry init (entry t x) = x) :
    entry (l.foldl (fun inv i => setEntry inv (entry t i) i) init) (entry t x) = x := by
  induction l generalizing init with
  | nil => simpa using hx
  | cons i l ih =>
    refine ih _ ?_
    rw [entry_setEntry]
    by_cases hxi : x = i
    · simp [hxi]
    · simpa [hxi, ht.ne hxi] using hx

/-- Rules R34, R165: the inverse of a permutation undoes it. -/
theorem entry_invert {t : Table} (ht : Function.Injective (entry t)) (x : Byte) : entry (invert t) (entry t x) = x :=
  entry_foldl_setEntry ht allBytes _ (.inl (mem_allBytes x))

/-! ### Packed tables

A table kept as one numeral is read by a division, where a list is walked: it makes the two computations over the 256 entries
of the AES table below cheap to check. -/

/-- A table as one number, entry `v` its digit `v` in base 256. -/
def packed (t : Table) : Nat := Nat.ofDigits 256 (t.toList.map BitVec.toNat)

/-- Byte `v` of a packed table. -/
def unpack (n : Nat) (v : Byte) : Byte := BitVec.ofNat 8 (n / 256 ^ v.toNat)

theorem unpack_packed (t : Table) (v : Byte) : unpack (packed t) v = entry t v := by
  have hdigits : ∀ d ∈ t.toList.map BitVec.toNat, d < 256 := by
    simp only [List.mem_map]
    rintro _ ⟨b, -, rfl⟩
    exact b.isLt
  have hdrop : (t.toList.map BitVec.toNat).drop v.toNat =
      (entry t v).toNat :: (t.toList.map BitVec.toNat).drop (v.toNat + 1) := by
    rw [List.drop_eq_getElem_cons (by simpa using v.isLt)]
    simp [entry]
  apply BitVec.eq_of_toNat_eq
  rw [unpack, packed, Nat.ofDigits_div_pow_eq_ofDigits_drop _ (by decide) _ hdigits, hdrop, Nat.ofDigits_cons]
  simpa using (entry t v).isLt

/-! ### The AES preset (rules R32, R36) -/

/-- The rotation of a byte by `k` bits to the left. -/
def rotl (b : Byte) (k : Nat) : Byte := b <<< k ^^^ b >>> (8 - k)

theorem rotl_linear (k : Nat) : XorLinear fun b => rotl b k := by
  intro a b
  simp only [rotl, BitVec.shiftLeft_xor_distrib, BitVec.ushiftRight_xor_distrib]
  ac_rfl

/-- The linear map that undoes `AES_MAT`. -/
def aesMatInv (b : Byte) : Byte := rotl b 1 ^^^ rotl b 3 ^^^ rotl b 6

theorem aesMatInv_linear : XorLinear aesMatInv := ((rotl_linear 1).xor (rotl_linear 3)).xor (rotl_linear 6)

theorem matVec_aesMatInv (v : Byte) : matVec Config.aesPreset.mat (aesMatInv v) = v :=
  ((matVec_linear Config.aesPreset.mat).comp aesMatInv_linear).ext XorLinear.id (by decide +kernel) v

/-- The field inverses as the AES table gives them: each entry with the affine map undone. -/
def aesFieldInv : Table :=
  ⟨(Config.aesSbox.toList.map fun b => aesMatInv (b ^^^ Config.aesPreset.cst)).toArray, by simp⟩

theorem entry_aesFieldInv (v : Byte) :
    entry aesFieldInv v = aesMatInv (entry Config.aesSbox v ^^^ Config.aesPreset.cst) := by
  simp [entry, aesFieldInv]

theorem gfMul_unpack_aesFieldInv :
    (nonzeroBytes.all fun v => gfMul v (unpack (packed aesFieldInv) v) == 1) = true := by decide +kernel

theorem gfMul_aesFieldInv {v : Byte} (hv : v ≠ 0) : gfMul v (entry aesFieldInv v) = 1 := by
  rw [← unpack_packed]
  simpa using List.all_eq_true.mp gfMul_unpack_aesFieldInv v (mem_nonzeroBytes.mpr hv)

/-- Rule R143: every non-zero byte has the inverse the search returns. -/
theorem gfMul_gfInv {v : Byte} (hv : v ≠ 0) : gfMul v (gfInv v) = 1 := by
  rw [gfInv_eq_of_gfMul_eq_one (gfMul_aesFieldInv hv), gfMul_aesFieldInv hv]

theorem gfInv_gfInv (v : Byte) : gfInv (gfInv v) = v := by
  by_cases hv : v = 0
  · simp [hv]
  · exact gfInv_eq_of_gfMul_eq_one ((gfMul_comm _ _).trans (gfMul_gfInv hv))

/-- Rule R36: the AES preset generates the printed table. -/
theorem fromAffine_aesPreset : fromAffine Config.aesPreset.mat Config.aesPreset.cst = Config.aesSbox := by
  apply ext_entry
  intro v
  rw [entry_fromAffine]
  by_cases hv : v = 0
  · subst hv
    decide +kernel
  · rw [gfInv_eq_of_gfMul_eq_one (gfMul_aesFieldInv hv), entry_aesFieldInv, matVec_aesMatInv,
      BitVec.xor_assoc, BitVec.xor_self, BitVec.xor_zero]

/-- A table generated by a matrix that reaches every byte is a permutation. -/
theorem permutation_fromAffine {m : Matrix} (hm : Function.Surjective (matVec m)) (c : Byte) :
    Statements.Permutation (fromAffine m c) := by
  have honto : Function.Surjective (entry (fromAffine m c)) := by
    intro v
    obtain ⟨u, hu⟩ := hm (v ^^^ c)
    exact ⟨gfInv u, by rw [entry_fromAffine, gfInv_gfInv, hu]; simp⟩
  exact ⟨Finite.injective_iff_surjective.mpr honto, honto⟩

/-! ### The SAC numerator (rule R230) -/

/-- The SAC numerator of a packed table. -/
def packedSacSum (n : Nat) : Nat :=
  (allBytes.map fun x => ((List.range 8).map fun b => hw (unpack n x ^^^ unpack n (x ^^^ (1#8 <<< b)))).sum).sum

theorem packedSacSum_packed (t : Table) : packedSacSum (packed t) = sacSum t := by
  simp only [packedSacSum, unpack_packed, sacSum]

/-- The numerator of the AES table, counted. -/
theorem packedSacSum_aesSbox : packedSacSum (packed Config.aesSbox) = 8272 := by decide +kernel

theorem sacSum_aesSbox : sacSum Config.aesSbox = 8272 :=
  (packedSacSum_packed Config.aesSbox).symm.trans packedSacSum_aesSbox

/-! ### The K-44 parameter (rules R8, R34) -/

theorem legalK44_iff (p : Config.Preset) :
    Config.legalK44 p = true ↔
      Statements.Permutation (fromAffine p.mat p.cst) ∧
        7865 ≤ sacSum (fromAffine p.mat p.cst) ∧ sacSum (fromAffine p.mat p.cst) ≤ 8519 := by
  simp [Config.legalK44, isBijection_iff, and_assoc]

/-- The preset that stands in for an illegal choice is legal (log entry 4). -/
theorem legalK44_aesPreset : Config.legalK44 Config.aesPreset = true := by
  have hperm := permutation_fromAffine (fun v => ⟨_, matVec_aesMatInv v⟩) Config.aesPreset.cst
  rw [legalK44_iff]
  refine ⟨hperm, ?_⟩
  rw [fromAffine_aesPreset, sacSum_aesSbox]
  decide

theorem legalK44_k44Preset : Config.legalK44 Config.k44Preset = true := by
  unfold Config.k44Preset
  split
  · assumption
  · exact legalK44_aesPreset

/-- Settles O36: whichever way the parameter falls it is legal, and slot 7 is made by the inversion of rule R165. -/
theorem k44ParameterMeetsItsHypotheses : Obligations.K44ParameterMeetsItsHypotheses := by
  obtain ⟨hperm, hlow, hhigh⟩ := (legalK44_iff Config.k44Preset).mp legalK44_k44Preset
  exact ⟨hperm, rfl, entry_invert hperm.injective, hlow, hhigh⟩

end Sys2Proof.Machine

/-! PROOFS. Slots, presets and the reset state (rules R30 to R36, R40, R168). -/
namespace Sys2Proof.Machine

/-! ### Slots (rules R30, R31) -/

theorem State.table?_four (s : State) : s.table? 4 = some Config.aesSbox := rfl

theorem State.table?_five (s : State) : s.table? 5 = some Config.aesInv := rfl

theorem State.table?_six (s : State) : s.table? 6 = some Config.k44Sbox := rfl

theorem State.table?_seven (s : State) : s.table? 7 = some Config.k44Inv := rfl

theorem State.table?_of_eq_val (s : State) {n : SlotNum} {d : Fin 4} (h : n.toNat = d.val) :
    s.table? n = some s.tbl[d] := by
  rw [s.table?_of_lt (h ▸ d.isLt)]
  simp [h]

/-! ### Presets (rules R35, R36, R168) -/

theorem toNat_encode_mpre (p : Byte) : (encode (.mpre p)).toNat = 0x44000000 + p.toNat := by
  rw [encode, wordI, toNat_layout]
  simp

theorem exec_mpre_of_eq_val {p : Byte} {i : Fin 2} (h : p.toNat = i.val) (s : State) :
    exec (.mpre p) s = done ((s.withMat (preset i).mat).withCst (preset i).cst) := by
  simp only [exec, execMpre, checkRange_eq_some.mpr h]

theorem exec_mpre_of_lt {p : Byte} (h : 1 < p.toNat) (s : State) :
    exec (.mpre p) s = raise .operandRange (encode (.mpre p)) s := by
  simp only [exec, execMpre, checkRange_eq_none.mpr h]

/-- Settles O24: the slot operand by its sixteen values, MPRE by the check of its operand. -/
theorem slotsAndPresetsNameTheirTables : Obligations.SlotsAndPresetsNameTheirTables := by
  intro s n p
  have hslot {k : SlotNum} (h : n.toNat = k.toNat) : s.table? n = s.table? k := by rw [BitVec.eq_of_toNat_eq h]
  exact ⟨fun _ => s.table?_of_eq_val, hslot (k := 4), hslot (k := 5), hslot (k := 6), hslot (k := 7),
    State.table?_eq_none.mpr, toNat_encode_mpre p, fun h => exec_mpre_of_eq_val (i := 0) h s,
    fun h => exec_mpre_of_eq_val (i := 1) h s, fun h => exec_mpre_of_lt h s⟩

/-! ### The AES tables (rules R32, R33, R36) -/

/-- Every entry of the two printed tables, read as packed numerals. -/
theorem unpack_aesInv_aesSbox :
    (allBytes.all fun v => unpack (packed Config.aesInv) (unpack (packed Config.aesSbox) v) == v) = true := by
  decide +kernel

theorem entry_aesInv_aesSbox (v : Byte) : entry Config.aesInv (entry Config.aesSbox v) = v := by
  rw [← unpack_packed, ← unpack_packed]
  simpa using List.all_eq_true.mp unpack_aesInv_aesSbox v (mem_allBytes v)

/-- Settles O35: slot 5 undoes slot 4 entry by entry, and the preset was shown to generate slot 4. -/
theorem aesTablesFitTogether : Obligations.AesTablesFitTogether := ⟨entry_aesInv_aesSbox, fromAffine_aesPreset⟩

/-! ### Reset (rules R40, R331) -/

@[simp] theorem entry_replicate {α : Type} (a : α) (v : Byte) : entry (Vector.replicate 256 a) v = a := by
  simp [entry]

theorem reg_reset (r : RegNum) : State.reset.reg r = 0 := by simp [State.reg, State.reset]

theorem rk_reset (r : Fin 11) (i : Fin 16) : State.reset.rk[r][i] = 0 := by simp [State.reset]

theorem entry_tbl_reset (d : Fin 4) (v : Byte) : entry State.reset.tbl[d] v = 0 := by simp [State.reset]

/-- Settles O1: the registers and arrays are filled with zero, the slots and presets do not depend on the state. -/
theorem resetStateIsTheResetTable : Obligations.ResetStateIsTheResetTable :=
  ⟨reg_reset, rfl, rfl, rfl, rfl, rfl, rfl, by simp [State.reset], by simp [State.reset], rk_reset,
    by simp [State.reset], rfl, entry_tbl_reset, State.reset.table?_four, State.reset.table?_five,
    State.reset.table?_six, State.reset.table?_seven, rfl, rfl, entry_replicate 0⟩

end Sys2Proof.Machine

/-! PROOFS. How large the integer of a metric command can be (rules R24, R220), so that none is cut when it goes to `q`. -/
namespace Sys2Proof.Machine

/-! ### Largest and smallest of a list -/

theorem maxOf_le {l : List Nat} {m : Nat} (h : ∀ a ∈ l, a ≤ m) : maxOf l ≤ m :=
  List.foldl_eq_foldr.trans_le (List.max_le_of_forall_le l m h)

theorem foldl_min_le (l : List Nat) (a : Nat) : l.foldl min a ≤ a := by
  induction l generalizing a with
  | nil => exact le_rfl
  | cons b l ih => exact (ih (min a b)).trans (min_le_left a b)

theorem minOf_le {l : List Nat} {m : Nat} (h : ∀ a ∈ l, a ≤ m) : minOf l ≤ m := by
  cases l with
  | nil => exact m.zero_le
  | cons a l => exact (foldl_min_le l a).trans (h a List.mem_cons_self)

theorem sum_map_le {α : Type} {l : List α} {f : α → Nat} {m : Nat} (h : ∀ a, f a ≤ m) :
    (l.map f).sum ≤ l.length * m := by
  simpa using List.sum_le_card_nsmul (l.map f) m (by simp [h])

theorem hw_le (v : Byte) : hw v ≤ 8 := List.countP_le_length

/-! ### The Walsh spectrum (rules R223, R224) -/

/-- A butterfly stage at most doubles the largest magnitude. -/
theorem natAbs_butterflyStage_le {g : Vector Int 256} {m : Nat} (hg : ∀ v, (entry g v).natAbs ≤ m) (h v : Byte) :
    (entry (butterflyStage (· + ·) (· - ·) g h) v).natAbs ≤ 2 * m := by
  rw [butterflyStage, entry_tabulateBytes, two_mul]
  split
  · exact (Int.natAbs_add_le _ _).trans (add_le_add (hg _) (hg _))
  · exact (Int.natAbs_sub_le _ _).trans (add_le_add (hg _) (hg _))

theorem natAbs_foldl_butterflyStage_le (hs : List Byte) {g : Vector Int 256} {m : Nat}
    (hg : ∀ v, (entry g v).natAbs ≤ m) (v : Byte) :
    (entry (hs.foldl (butterflyStage (· + ·) (· - ·)) g) v).natAbs ≤ 2 ^ hs.length * m := by
  induction hs generalizing g m with
  | nil => simpa using hg v
  | cons h hs ih =>
    calc _ ≤ 2 ^ hs.length * (2 * m) := ih (natAbs_butterflyStage_le hg h)
      _ = 2 ^ (h :: hs).length * m := by rw [List.length_cons, pow_succ, mul_assoc]

/-- Eight stages take the ±1 table of a component function to magnitudes of at most 256. -/
theorem natAbs_walsh_component_le (t : Table) (b a : Byte) : (entry (walsh (component t b)) a).natAbs ≤ 256 := by
  refine natAbs_foldl_butterflyStage_le spans (m := 1) (fun v => ?_) a
  rw [component, entry_tabulateBytes]
  split <;> decide

/-! ### The difference histogram (rule R234) -/

/-- Counting one more input raises no bucket by more than one. -/
theorem entry_foldl_count_le (key : Byte → Byte) (l : List Byte) {h : Vector Nat 256} {m : Nat}
    (hm : ∀ v, entry h v ≤ m) (v : Byte) :
    entry (l.foldl (fun h x => setEntry h (key x) (entry h (key x) + 1)) h) v ≤ m + l.length := by
  induction l generalizing h m with
  | nil => exact hm v
  | cons x l ih =>
    have hset (u : Byte) : entry (setEntry h (key x) (entry h (key x) + 1)) u ≤ m + 1 := by
      rw [entry_setEntry]
      split
      · exact Nat.succ_le_succ (hm _)
      · exact (hm u).trans m.le_succ
    calc _ ≤ m + 1 + l.length := ih hset
      _ = m + (x :: l).length := by rw [List.length_cons]; omega

theorem entry_diffHistogram_le (t : Table) (dx dy : Byte) : entry (diffHistogram t dx) dy ≤ 256 := by
  simpa [diffHistogram] using entry_foldl_count_le (fun x => entry t x ^^^ entry t (x ^^^ dx)) allBytes
    (h := Vector.replicate 256 0) (m := 0) (by simp) dy

/-! ### The metrics (rule R220, column "range of q") -/

theorem nlMask_le (t : Table) (b : Byte) : nlMask t b ≤ 128 :=
  Nat.div_le_div_right (c := 2) (Nat.sub_le 256 _)

theorem nonLinearity_le (t : Table) : nonLinearity t ≤ 128 := minOf_le (by simp [nlMask_le])

theorem bitIndependence_le (t : Table) : bitIndependence t ≤ 128 :=
  minOf_le (List.forall_mem_map.mpr fun b _ => nlMask_le t b)

/-- 256 inputs, 8 flips, 8 output bits. -/
theorem sacSum_le (t : Table) : sacSum t ≤ 16384 := by
  have hflips (x : Byte) :
      ((List.range 8).map fun b => hw (entry t x ^^^ entry t (x ^^^ (1#8 <<< b)))).sum ≤ 8 * 8 := by
    simpa using sum_map_le (l := List.range 8) (fun b => hw_le (entry t x ^^^ entry t (x ^^^ (1#8 <<< b))))
  simpa [sacSum] using sum_map_le (l := allBytes) hflips

theorem lapMax_le (t : Table) : lapMax t ≤ 256 :=
  maxOf_le (List.forall_mem_map.mpr fun b _ =>
    maxOf_le (List.forall_mem_map.mpr fun a _ => natAbs_walsh_component_le t b a))

theorem dapMax_le (t : Table) : dapMax t ≤ 256 := by
  refine maxOf_le (List.forall_mem_map.mpr fun dx _ => maxOf_le fun n hn => ?_)
  obtain ⟨dy, rfl⟩ := mem_toList_iff_entry.mp hn
  exact entry_diffHistogram_le t dx dy

theorem algebraicDegree_le (t : Table) : algebraicDegree t ≤ 8 :=
  maxOf_le (List.forall_mem_map.mpr fun _ _ => maxOf_le (List.forall_mem_map.mpr fun j _ => hw_le j))

theorem fixedPoints_le (t : Table) : fixedPoints t ≤ 256 := by
  simpa [fixedPoints] using List.countP_le_length (p := fun x => entry t x == x) (l := allBytes)

/-- The magnitude of a 16-bit two's complement value (rule R226). -/
theorem walshMax_le (w : WalshArray) : walshMax w ≤ 32768 := by
  refine maxOf_le (List.forall_mem_map.mpr fun v _ => ?_)
  have hlow := v.le_two_mul_toInt
  have hhigh := v.two_mul_toInt_lt
  omega

end Sys2Proof.Machine

/-! PROOFS. The invariants of the unit (rules R23 to R25, R41, R301): the ways a command can end, said once; each invariant is
kept by each of them, and so by a step. -/
namespace Sys2Proof.Machine

/-! ### The ways a command ends -/

/-- What a command that raises no fault leaves, before it responds. -/
inductive Completes (s : State) : State → Prop
  /-- Only data registers and arrays are written, or nothing. -/
  | data (x : Vector Byte 16) (blk : Block) (mat : Matrix) (cst : Byte) (tbl : Vector Table 4) (w : WalshArray) :
      Completes s { s with x := x, blk := blk, mat := mat, cst := cst, tbl := tbl, w := w }
  /-- CLRF, rule R109. -/
  | clearsRecord : Completes s ((s.withEc 0).withEw 0)
  /-- KWI, rule R114. -/
  | writesKey (i : Fin 16) (v : Byte) : Completes s ((s.setKeyByte i v).withSr (clearRkv s.sr))
  /-- KEYEXP, rule R201. -/
  | expandsKey : Completes s ((s.withRk (keyExpansion s.key)).withSr (setRkv s.sr))
  /-- SBCHK, rule R164. -/
  | writesBij (b : Bool) : Completes s (s.withSr (setBij s.sr b))
  /-- A metric command or WMAX, rules R220, R226. -/
  | writesQ (n : Nat) (hn : n ≤ 32768) : Completes s (s.withQ (BitVec.ofNat 16 n))

/-- The outcome of a command: a fault, or a response after what the command leaves (rules R12, R305). -/
inductive Ends (s : State) : Result → Prop
  | raises (f : FaultCode) (c : Word) : Ends s (raise f c s)
  | responds {u : State} (v : Word) (h : Completes s u) : Ends s (respond u v)

theorem Ends.next_cases {s t : State} (h : Ends s (.next t)) :
    (∃ f c, t = s.faulted f c) ∨ ∃ u v, Completes s u ∧ t = u.answer ⟨0, v⟩ := by
  generalize ho : Host.Outcome.next t = o at h
  cases h with
  | raises f c => exact .inl ⟨f, c, raise_eq_next.mp ho.symm⟩
  | @responds u v hu => exact .inr ⟨u, v, hu, respond_eq_next.mp ho.symm⟩

theorem ends_metric {f : Table → Nat} (hf : ∀ t, f t ≤ 32768) (c : Word) (ts : SlotNum) (s : State) :
    Ends s (metric f c ts s) := by
  unfold metric
  split
  · exact .raises _ _
  · exact .responds _ (.writesQ _ (hf _))

/-- Every command, the commands grouped by the checks they make on the way. -/
theorem exec_ends (i : Instr) (s : State) : Ends s (exec i s) := by
  cases i with
  | nop | ldi | mov | rdx | rdq | rdsr | rdec | rdew | cwi | crd | wrd | gfmul | gfinv | xor
  | shrow | ishrow | mixc | imixc | fwht => exact .responds _ (.data ..)
  | clrf => exact .responds _ .clearsRecord
  | keyexp => exact .responds _ .expandsKey
  | bwi | brd | bst | bld | krd | mwi | mrd | mpre | twi | tst | tcpy | sbgen | sbinvl | trd | tld | subb | wload =>
    simp only [exec, execBwi, execBrd, execBst, execBld, execKrd, execMwi, execMrd, execMpre, execTwi, execTst,
      execTcpy, execSbgen, execSbinvl, execTrd, execTld, execSubb, execWload]
    split
    · exact .raises _ _
    · exact .responds _ (.data ..)
  | rkrd =>
    simp only [exec, execRkrd]
    split
    · exact .responds _ (.data ..)
    · exact .raises _ _
  | kwi =>
    simp only [exec, execKwi]
    split
    · exact .raises _ _
    · exact .responds _ (.writesKey _ _)
  | sbchk =>
    simp only [exec, execSbchk]
    split
    · exact .raises _ _
    · exact .responds _ (.writesBij _)
  | addrk | encb | decb | sbinv =>
    simp only [exec, execAddrk, execEncb, execDecb, execSbinv]
    split
    · exact .raises _ _
    · split
      · exact .responds _ (.data ..)
      · exact .raises _ _
  | wmax => exact .responds _ (.writesQ _ (walshMax_le s.w))
  | nl => exact ends_metric (fun t => (nonLinearity_le t).trans (by decide)) _ _ s
  | sac => exact ends_metric (fun t => (sacSum_le t).trans (by decide)) _ _ s
  | lap => exact ends_metric (fun t => (lapMax_le t).trans (by decide)) _ _ s
  | dap => exact ends_metric (fun t => (dapMax_le t).trans (by decide)) _ _ s
  | du => exact ends_metric (fun t => (dapMax_le t).trans (by decide)) _ _ s
  | ad => exact ends_metric (fun t => (algebraicDegree_le t).trans (by decide)) _ _ s
  | bic => exact ends_metric (fun t => (bitIndependence_le t).trans (by decide)) _ _ s
  | fixp => exact ends_metric (fun t => (fixedPoints_le t).trans (by decide)) _ _ s

/-- Every accepted word, decodable or not (rules R78, R302). -/
theorem deliver_ends (c : Word) (s : State) : Ends s (deliver c s) := by
  obtain ⟨_, -, h⟩ | ⟨i, -, h⟩ := deliver_cases c s
  · exact h ▸ .raises .illegalCommand c
  · exact h ▸ exec_ends i s

/-! ### What every step keeps -/

/-- A property that taking a word off the queue keeps, and that holds after a fault and after a response, is kept by a
step. -/
theorem step_keeps {P : State → Prop} (htake : ∀ s ws, P s → P (s.withCmds ws))
    (hfault : ∀ s f c, P s → P (s.faulted f c))
    (hrespond : ∀ s u v, Completes s u → P s → P (u.answer ⟨0, v⟩))
    {s t : State} (hstep : step s = .next t) (hs : P s) : P t := by
  cases hq : s.cmds with
  | nil =>
    obtain rfl : s = t := by simpa [step, serve_nil hq] using hstep
    exact hs
  | cons c rest =>
    rw [step, serve_cons hq] at hstep
    obtain ⟨f, e, rfl⟩ | ⟨u, v, hu, rfl⟩ := (hstep ▸ deliver_ends c (s.withCmds rest)).next_cases
    · exact hfault _ f e (htake s rest hs)
    · exact hrespond _ u v hu (htake s rest hs)

/-! ### Status bits (rule R23) -/

theorem setBij_and_high (sr : Byte) (b : Bool) : setBij sr b &&& 0xFC = sr &&& 0xFC := by
  cases b <;> simp [setBij, BitVec.and_or_distrib_right, BitVec.and_assoc]

theorem setRkv_and_high (sr : Byte) : setRkv sr &&& 0xFC = sr &&& 0xFC := by
  simp [setRkv, BitVec.and_or_distrib_right]

theorem clearRkv_and_high (sr : Byte) : clearRkv sr &&& 0xFC = sr &&& 0xFC := by
  simp [clearRkv, BitVec.and_assoc]

/-- The flag commands write bits 0 and 1 only. -/
theorem Completes.sr_and_high {s u : State} (h : Completes s u) : u.sr &&& 0xFC = s.sr &&& 0xFC := by
  cases h with
  | data | clearsRecord | writesQ => rfl
  | writesKey => exact clearRkv_and_high s.sr
  | expandsKey => exact setRkv_and_high s.sr
  | writesBij b => exact setBij_and_high s.sr b

theorem step_keeps_statusBitsZero {s t : State} (h : step s = .next t) :
    Safety.StatusBitsZero s → Safety.StatusBitsZero t :=
  step_keeps (fun _ _ h => h) (fun _ _ _ h => h) (fun _ _ _ hu h => hu.sr_and_high.trans h) h

/-! ### Round keys (rule R41) -/

/-- A key write clears RKV, and the command that sets it expands the key. -/
theorem Completes.roundKeysFresh {s u : State} (h : Completes s u) (hs : Safety.RoundKeysFresh s) :
    Safety.RoundKeysFresh u := by
  cases h with
  | data | clearsRecord | writesQ => exact hs
  | writesKey => simp [Safety.RoundKeysFresh]
  | expandsKey => exact fun _ => rfl
  | writesBij b => simpa [Safety.RoundKeysFresh] using hs

theorem step_keeps_roundKeysFresh {s t : State} (h : step s = .next t) :
    Safety.RoundKeysFresh s → Safety.RoundKeysFresh t :=
  step_keeps (fun _ _ h => h) (fun _ _ _ h => h) (fun _ _ _ hu => hu.roundKeysFresh) h

/-! ### The fault record and the responses (rules R25, R301) -/

theorem FaultCode.code_legal (f : FaultCode) : f.code.toNat ≤ 5 ∧ f.code ≠ 0 := by
  cases f <;> decide

/-- No command but CLRF writes the record without raising a fault. -/
theorem Completes.faultRecordLegal {s u : State} (h : Completes s u) (hs : Safety.FaultRecordLegal s) :
    Safety.FaultRecordLegal u := by
  cases h with
  | data | writesKey | expandsKey | writesBij | writesQ => exact hs
  | clearsRecord => simp [Safety.FaultRecordLegal]

theorem faultRecordLegal_faulted (s : State) (f : FaultCode) (c : Word) : Safety.FaultRecordLegal (s.faulted f c) :=
  ⟨f.code_legal.1, fun h => absurd h f.code_legal.2⟩

theorem step_keeps_faultRecordLegal {s t : State} (h : step s = .next t) :
    Safety.FaultRecordLegal s → Safety.FaultRecordLegal t :=
  step_keeps (fun _ _ h => h) (fun s f c _ => faultRecordLegal_faulted s f c) (fun _ _ _ hu => hu.faultRecordLegal) h

theorem Completes.responses {s u : State} (h : Completes s u) : u.responses = s.responses := by
  cases h <;> rfl

theorem responsesLegal_answer {s : State} {r : Response} :
    Safety.ResponsesLegal (s.answer r) ↔
      Safety.ResponsesLegal s ∧ r.status.toNat ≤ 5 ∧ (r.status ≠ 0 → r.data = 0) := by
  simp only [Safety.ResponsesLegal, State.answer_responses, List.forall_mem_append, List.forall_mem_singleton]

theorem step_keeps_responsesLegal {s t : State} (h : step s = .next t) :
    Safety.ResponsesLegal s → Safety.ResponsesLegal t := by
  refine step_keeps (fun _ _ h => h) (fun s f c hs => ?_) (fun s u v hu hs => ?_) h
  · exact responsesLegal_answer.mpr ⟨hs, f.code_legal.1, fun _ => rfl⟩
  · have hlegal : Safety.ResponsesLegal u := by rwa [Safety.ResponsesLegal, hu.responses]
    exact responsesLegal_answer.mpr ⟨hlegal, by simp, fun h => absurd rfl h⟩

/-! ### The result register (rule R24) -/

theorem Completes.resultBounded {s u : State} (h : Completes s u) (hs : Safety.ResultBounded s) :
    Safety.ResultBounded u := by
  cases h with
  | data | clearsRecord | writesKey | expandsKey | writesBij => exact hs
  | writesQ n hn => exact (BitVec.toNat_ofNat n 16).trans_le ((Nat.mod_le n _).trans hn)

theorem step_keeps_resultBounded {s t : State} (h : step s = .next t) :
    Safety.ResultBounded s → Safety.ResultBounded t :=
  step_keeps (fun _ _ h => h) (fun _ _ _ h => h) (fun _ _ _ hu => hu.resultBounded) h

/-! ### The statements -/

/-- Settles O8: the three are kept one by one. -/
theorem stepKeepsStatusAndFaultRecordLegal : Obligations.StepKeepsStatusAndFaultRecordLegal := fun _ _ h =>
  ⟨step_keeps_statusBitsZero h, step_keeps_faultRecordLegal h, step_keeps_responsesLegal h⟩

/-- Settles O9: RKV is set only by the command that expands the key, and cleared by the one that writes it. -/
theorem stepKeepsRoundKeysFresh : Obligations.StepKeepsRoundKeysFresh := fun _ _ hs h =>
  step_keeps_roundKeysFresh h hs

/-- Settles O10: each of the five is kept by every step. -/
theorem stepKeepsEveryInvariant : Obligations.StepKeepsEveryInvariant := by
  rintro s t ⟨hstatus, hkeys, hrecord, hresult, hresponses⟩ h
  exact ⟨step_keeps_statusBitsZero h hstatus, step_keeps_roundKeysFresh h hkeys, step_keeps_faultRecordLegal h hrecord,
    step_keeps_resultBounded h hresult, step_keeps_responsesLegal h hresponses⟩

/-- Settles O12: RKV is clear at reset, so no round key is claimed fresh. -/
theorem resetMeetsTheInvariants : Obligations.ResetMeetsTheInvariants :=
  ⟨rfl, fun h => absurd h (by decide), ⟨by decide, fun _ => rfl⟩, by decide, by simp [Safety.ResponsesLegal, State.reset]⟩

end Sys2Proof.Machine

/-! PROOFS. The encoding (rules R71, R72, R75, R76, R78): a word decodes to a command exactly when it matches the
command's row and carries its operands in their fields, and then no bit of it is left over. -/
namespace Sys2Proof

open Sys2Proof.Machine

/-! ### The rows of the opcode map (rule R75) -/

theorem Mnemonic.mem_all (m : Mnemonic) : m ∈ Mnemonic.all := by cases m <;> decide

/-- A column of the opcode map without repeated values finds its row. -/
theorem Mnemonic.find?_all_eq_some {κ : Type} [BEq κ] [LawfulBEq κ] {key : Mnemonic → κ}
    (hkey : (Mnemonic.all.map key).Nodup) {k : κ} {m : Mnemonic} :
    (Mnemonic.all.find? fun n => key n == k) = some m ↔ key m = k := by
  constructor
  · intro h
    simpa using List.find?_some h
  · rintro rfl
    obtain ⟨n, hn⟩ : ∃ n, (Mnemonic.all.find? fun n => key n == key m) = some n :=
      Option.isSome_iff_exists.mp (List.find?_isSome.mpr ⟨m, m.mem_all, by simp⟩)
    have hnm : key n = key m := by simpa using List.find?_some hn
    rw [hn, List.inj_on_of_nodup_map hkey n.mem_all m.mem_all hnm]

theorem Mnemonic.ofOpcode?_eq_some {op : Byte} {m : Mnemonic} : ofOpcode? op = some m ↔ m.opcode = op :=
  find?_all_eq_some (by decide)

@[simp] theorem Mnemonic.mnemonic_operandsFrom (c : Word) (m : Mnemonic) : (m.operandsFrom c).mnemonic = m := by
  cases m <;> rfl

/-! ### The fields of a masked word (rules R71, R72) -/

@[simp] theorem byte_and_all (v : Byte) : v &&& 0xFF#8 = v := BitVec.and_allOnes
@[simp] theorem nibble_and_all (v : BitVec 4) : v &&& 0xF#4 = v := BitVec.and_allOnes

@[simp] theorem fieldOp_and (c d : Word) : fieldOp (c &&& d) = fieldOp c &&& fieldOp d := BitVec.extractLsb'_and
@[simp] theorem fieldA_and (c d : Word) : fieldA (c &&& d) = fieldA c &&& fieldA d := BitVec.extractLsb'_and
@[simp] theorem fieldB_and (c d : Word) : fieldB (c &&& d) = fieldB c &&& fieldB d := BitVec.extractLsb'_and
@[simp] theorem fieldIdx_and (c d : Word) : fieldIdx (c &&& d) = fieldIdx c &&& fieldIdx d := BitVec.extractLsb'_and
@[simp] theorem fieldImm_and (c d : Word) : fieldImm (c &&& d) = fieldImm c &&& fieldImm d := BitVec.extractLsb'_and

theorem Mnemonic.matchWord_eq_layout (m : Mnemonic) : m.matchWord = layout m.opcode 0 0 0 0 := by cases m <;> rfl

/-- Every mask compares the whole opcode. -/
@[simp] theorem Format.fieldOp_mask (f : Format) : fieldOp f.mask = 0xFF := by cases f <;> rfl

/-- `C` is the upper half of `IDX`. -/
theorem fieldIdx_and_upper (c : Word) : fieldIdx c &&& 0xF0#8 = fieldC c ++ 0#4 := by
  apply BitVec.eq_of_getLsbD_eq
  intro i hi
  change _ = (fieldC c ++ 0#4 : BitVec (4 + 4)).getLsbD i
  rw [BitVec.getLsbD_append]
  simp [fieldIdx, fieldC]
  interval_cases i <;> simp

/-! ### Decoding (rules R72, R78) -/

/-- Rule R72: the row a word matches gives its opcode. -/
theorem fieldOp_of_matches {c : Word} {m : Mnemonic} (h : c &&& m.format.mask = m.matchWord) :
    fieldOp c = m.opcode := by
  simpa [Mnemonic.matchWord_eq_layout] using congrArg fieldOp h

/-- What a decodable word is: it matches the row of its command, and the operands are those of its fields (rule R78). -/
theorem decode_eq_ok {c : Word} {i : Instr} :
    decode c = .ok i ↔ c &&& i.mnemonic.format.mask = i.mnemonic.matchWord ∧ i.mnemonic.operandsFrom c = i := by
  constructor
  · intro h
    unfold decode at h
    split at h
    · cases h
    next m hm =>
      split at h
      next hmatch =>
        obtain rfl := Except.ok.inj h
        simpa using hmatch
      · cases h
  · rintro ⟨hmatch, hi⟩
    have hrow := Mnemonic.ofOpcode?_eq_some.mpr (fieldOp_of_matches hmatch).symm
    simp [decode, hrow, hmatch, hi]

/-- Settles O4: the operands of the row a word matches always exist, so matching is decoding. -/
theorem wordEncodesExactlyItsRow : Obligations.WordEncodesExactlyItsRow := by
  intro c m
  constructor
  · intro h
    exact ⟨m.operandsFrom c, decode_eq_ok.mpr (by simpa using h), m.mnemonic_operandsFrom c⟩
  · rintro ⟨i, hi, rfl⟩
    exact (decode_eq_ok.mp hi).1

/-- Settles O3: the decoder answers no command for such a word, and the port then raises IllegalCommand. -/
theorem wordOfNoRowIsIllegal : Obligations.WordOfNoRowIsIllegal := by
  intro c rest s hs hrow
  cases hc : decode c with
  | error e => exact step_of_decode_error hs hc
  | ok i => exact absurd ⟨_, (decode_eq_ok.mp hc).1⟩ hrow

/-- Settles O7: the decoder evaluated on the words the spec prints. -/
theorem writtenWordsDecode : Obligations.WrittenWordsDecode := by
  unfold Obligations.WrittenWordsDecode
  decide

/-! ### The words of a format (rule R72) -/

/-- The word of a format made of an opcode and the fields of another word that the format uses (rule R72). -/
def Format.wordFrom (op : Byte) (c : Word) : Format → Word
  | .n => wordN op
  | .a => wordA op (fieldA c)
  | .b => wordB op (fieldB c)
  | .i => wordI op (fieldImm c)
  | .ab => wordAB op (fieldA c) (fieldB c)
  | .ai => wordAI op (fieldA c) (fieldImm c)
  | .bi => wordBI op (fieldB c) (fieldImm c)
  | .abc => wordABC op (fieldA c) (fieldB c) (fieldC c)
  | .x => wordX op (fieldIdx c)
  | .xi => wordXI op (fieldIdx c) (fieldImm c)
  | .ax => wordAX op (fieldA c) (fieldIdx c)
  | .axi => wordAXI op (fieldA c) (fieldIdx c) (fieldImm c)

/-- The encoder uses exactly the fields the decoder reads, row by row. -/
theorem encode_operandsFrom (c : Word) (m : Mnemonic) : encode (m.operandsFrom c) = m.format.wordFrom m.opcode c := by
  cases m <;> rfl

/-- A format's mask leaves the opcode alone of a word of that format (rule R72). -/
theorem Format.wordFrom_and_mask (op : Byte) (c : Word) (f : Format) : f.wordFrom op c &&& f.mask = op ++ 0#24 := by
  cases f with
  | n => exact Laws.wordN_and_mask op
  | a => exact Laws.wordA_and_mask op _
  | b => exact Laws.wordB_and_mask op _
  | i => exact Laws.wordI_and_mask op _
  | ab => exact Laws.wordAB_and_mask op _ _
  | ai => exact Laws.wordAI_and_mask op _ _
  | bi => exact Laws.wordBI_and_mask op _ _
  | abc => exact Laws.wordABC_and_mask op _ _ _
  | x => exact Laws.wordX_and_mask op _
  | xi => exact Laws.wordXI_and_mask op _ _
  | ax => exact Laws.wordAX_and_mask op _ _
  | axi => exact Laws.wordAXI_and_mask op _ _ _

/-! ### Decoding an encoded command -/

/-- Rule R73: each operand is read back from the field the encoder put it in. -/
theorem operandsFrom_encode (i : Instr) : i.mnemonic.operandsFrom (encode i) = i := by
  cases i <;>
    simp [Instr.mnemonic, Mnemonic.operandsFrom, encode, wordA, wordB, wordI, wordAB, wordAI, wordBI, wordABC, wordX,
      wordXI, wordAX, wordAXI]

/-- Rule R72: the word of a command is a word of the command's format, so it matches the command's row. -/
theorem encode_matches (i : Instr) : encode i &&& i.mnemonic.format.mask = i.mnemonic.matchWord := by
  have hword : encode i = i.mnemonic.format.wordFrom i.mnemonic.opcode (encode i) := by
    rw [← encode_operandsFrom, operandsFrom_encode]
  rw [hword]
  exact Format.wordFrom_and_mask _ _ _

/-- Settles O5: the word of a command matches its row, and the row's fields hold the operands. -/
theorem decodeEncodeRoundTrip : Obligations.DecodeEncodeRoundTrip := fun i =>
  decode_eq_ok.mpr ⟨encode_matches i, operandsFrom_encode i⟩

/-! ### Encoding a decoded word -/

/-- A format uses exactly the bits its mask leaves out (rule R72, columns fields and mask). -/
theorem Format.wordFrom_eq_layout (op : Byte) (c : Word) (f : Format) :
    f.wordFrom op c = layout op (fieldA c &&& ~~~ fieldA f.mask) (fieldB c &&& ~~~ fieldB f.mask)
      (fieldIdx c &&& ~~~ fieldIdx f.mask) (fieldImm c &&& ~~~ fieldImm f.mask) := by
  cases f with
  | abc =>
    rw [wordFrom, wordABC, ← fieldIdx_and_upper]
    simp [Format.mask, fieldA, fieldB, fieldIdx, fieldImm]
  | _ =>
    simp [wordFrom, wordN, wordA, wordB, wordI, wordAB, wordAI, wordBI, wordX, wordXI, wordAX, wordAXI, Format.mask,
      fieldA, fieldB, fieldIdx, fieldImm]

/-- Clearing the bits of a mask changes nothing where none of them is set. -/
theorem and_not_of_and_eq_zero {w : Nat} {v m : BitVec w} (h : v &&& m = 0) : v &&& ~~~ m = v := by
  have hsplit : v = v &&& (m ||| ~~~ m) := by simp
  rw [BitVec.and_or_distrib_left, h] at hsplit
  simpa using hsplit.symm

/-- A word that matches a row is made of the row's opcode and its own fields: the bits outside them are zero. -/
theorem wordFrom_of_matches {c : Word} {m : Mnemonic} (h : c &&& m.format.mask = m.matchWord) :
    m.format.wordFrom m.opcode c = c := by
  have hrow := h.trans m.matchWord_eq_layout
  have hA : fieldA c &&& fieldA m.format.mask = 0 := by simpa using congrArg fieldA hrow
  have hB : fieldB c &&& fieldB m.format.mask = 0 := by simpa using congrArg fieldB hrow
  have hIdx : fieldIdx c &&& fieldIdx m.format.mask = 0 := by simpa using congrArg fieldIdx hrow
  have hImm : fieldImm c &&& fieldImm m.format.mask = 0 := by simpa using congrArg fieldImm hrow
  rw [Format.wordFrom_eq_layout, and_not_of_and_eq_zero hA, and_not_of_and_eq_zero hB, and_not_of_and_eq_zero hIdx,
    and_not_of_and_eq_zero hImm, ← fieldOp_of_matches h, layout_fields]

/-- Settles O6: a decodable word matches its row, so its command's fields are the whole word. -/
theorem encodeDecodeRoundTrip : Obligations.EncodeDecodeRoundTrip := by
  intro c i h
  obtain ⟨hmatch, hi⟩ := decode_eq_ok.mp h
  rw [← hi, encode_operandsFrom, wordFrom_of_matches hmatch]

end Sys2Proof

/-! PROOFS. The assembly form (rule R79): how a written line falls apart into its name and its operands, and that each
part is read back. -/
namespace Sys2Proof.Machine

/-! ### Digits and operands -/

theorem hexValue_hexDigit {n : Nat} (h : n < 16) : hexValue (hexDigit n) = some n := by
  revert n; decide

theorem readDigits_byteText {n : Nat} (h : n < 256) :
    readDigits 16 [hexDigit (n / 16), hexDigit (n % 16)] = some n := by
  have hhi : n / 16 < 16 := by omega
  have hlo : n % 16 < 16 := by omega
  simp [readDigits, hexValue_hexDigit, hhi, hlo]
  omega

theorem readDigits_smallDecimal {n : Nat} (h : n < 16) : readDigits 10 (smallDecimal n) = some n := by
  unfold smallDecimal
  split
  next hlt => simp [readDigits, hexValue_hexDigit h, hlt]
  next hge =>
    have hlo : n - 10 < 16 := by omega
    have hone : hexValue '1' = some 1 := by decide
    simp [readDigits, hexValue_hexDigit hlo, hone]
    omega

/-- The operands that have an assembly form: slots `t0` to `t7`, and numbers of a byte. -/
def Operand.Printable : Operand → Prop
  | .reg _ => True
  | .slot t => t.toNat < 8
  | .num n => n < 256

theorem readOperand_operandText {o : Operand} (h : o.Printable) : readOperand (operandText o) = some o := by
  cases o with
  | reg r => simp [operandText, readOperand, readDigits_smallDecimal r.isLt, r.isLt]
  | slot t =>
    have ht : t.toNat < 8 := h
    simp [operandText, readOperand, readDigits_smallDecimal t.isLt, ht]
  | num n => simp [operandText, byteText, readOperand, readNumber, readDigits_byteText h]

/-! ### The characters of a line -/

/-- A character that stands inside a name or an operand: no blank, no comma, no start of a comment. -/
def isInner (c : Char) : Bool := !isBlank c && c != ',' && c != ';'

theorem mnemonicText_ne_nil (m : Mnemonic) : mnemonicText m ≠ [] := by cases m <;> decide

theorem mnemonicText_inner (m : Mnemonic) : ∀ c ∈ mnemonicText m, isInner c := by
  have hall : (mnemonicText m).all isInner := by cases m <;> decide
  exact List.all_eq_true.mp hall

theorem mnemonicText_nodup : (Mnemonic.all.map mnemonicText).Nodup := by decide +kernel

theorem hexDigit_inner {n : Nat} (h : n < 16) : isInner (hexDigit n) := by revert n; decide

theorem smallDecimal_inner {n : Nat} (h : n < 16) : ∀ c ∈ smallDecimal n, isInner c := by
  unfold smallDecimal
  split
  · simpa using hexDigit_inner h
  · simpa using ⟨by decide, hexDigit_inner (by omega)⟩

theorem operandText_ne_nil (o : Operand) : operandText o ≠ [] := by
  cases o <;> simp [operandText, byteText]

theorem operandText_inner {o : Operand} (h : o.Printable) : ∀ c ∈ operandText o, isInner c := by
  cases o with
  | reg r => simpa [operandText] using ⟨by decide, smallDecimal_inner r.isLt⟩
  | slot t => simpa [operandText] using ⟨by decide, smallDecimal_inner t.isLt⟩
  | num n =>
    have hn : n < 256 := h
    simpa [operandText, byteText] using
      ⟨by decide, by decide, hexDigit_inner (n := n / 16) (by omega), hexDigit_inner (n := n % 16) (by omega)⟩

theorem isBlank_of_isInner {c : Char} (h : isInner c) : isBlank c = false := by
  simp_all [isInner]

/-- The text ends inside a name or an operand. -/
def EndsInner (t : Text) : Prop := ∃ init c, t = init ++ [c] ∧ isInner c

theorem endsInner_of_inner {t : Text} (hne : t ≠ []) (h : ∀ c ∈ t, isInner c) : EndsInner t :=
  ⟨t.dropLast, t.getLast hne, (List.dropLast_concat_getLast hne).symm, h _ (List.getLast_mem hne)⟩

theorem EndsInner.append_left {t : Text} (h : EndsInner t) (s : Text) : EndsInner (s ++ t) := by
  obtain ⟨init, c, rfl, hc⟩ := h
  exact ⟨s ++ init, c, by simp, hc⟩

/-- Taking the blanks off the front leaves a text that ends where it did. -/
theorem EndsInner.dropWhile {t : Text} (h : EndsInner t) : EndsInner (t.dropWhile isBlank) := by
  obtain ⟨init, c, rfl, hc⟩ := h
  refine ⟨init.dropWhile isBlank, c, ?_, hc⟩
  rw [List.dropWhile_append]
  split <;> simp_all [isBlank_of_isInner hc]

theorem EndsInner.ne_nil {t : Text} (h : EndsInner t) : t ≠ [] := by
  obtain ⟨init, c, rfl, -⟩ := h
  simp

/-- Such a text has no blanks at its end to trim. -/
theorem EndsInner.trim_eq {t : Text} (h : EndsInner t) : trim t = t.dropWhile isBlank := by
  obtain ⟨init, c, ht, hc⟩ := h.dropWhile
  simp [trim, ht, isBlank_of_isInner hc]

/-- A name or an operand at the front keeps the front from being trimmed. -/
theorem dropWhile_isBlank_append {p : Text} (hne : p ≠ []) (h : ∀ c ∈ p, isInner c) (t : Text) :
    (p ++ t).dropWhile isBlank = p ++ t := by
  cases p with
  | nil => exact absurd rfl hne
  | cons c cs => simp [isBlank_of_isInner (h c List.mem_cons_self)]

/-! ### The operands of a line -/

theorem splitAtChar_of_notMem {sep : Char} {p : Text} (h : sep ∉ p) : splitAtChar sep p = [p] := by
  induction p with
  | nil => rfl
  | cons c cs ih =>
    obtain ⟨hc, hcs⟩ := List.ne_and_not_mem_of_not_mem_cons h
    simp [splitAtChar, ih hcs, Ne.symm hc]

theorem splitAtChar_append {sep : Char} {p : Text} (h : sep ∉ p) (t : Text) :
    splitAtChar sep (p ++ sep :: t) = p :: splitAtChar sep t := by
  induction p with
  | nil => simp [splitAtChar]
  | cons c cs ih =>
    obtain ⟨hc, hcs⟩ := List.ne_and_not_mem_of_not_mem_cons h
    simp [splitAtChar, ih hcs, Ne.symm hc]

theorem allSome_map_some {α β : Type} {f : α → Option β} {g : α → β} {l : List α}
    (h : ∀ a ∈ l, f a = some (g a)) : allSome (l.map f) = some (l.map g) := by
  induction l with
  | nil => rfl
  | cons a l ih =>
    obtain ⟨ha, hl⟩ := List.forall_mem_cons.mp h
    simp [allSome, ha, ih hl]

/-- The part of a written line after the name. -/
def operandPart (ops : List Operand) : Text := if ops.isEmpty then [] else ' ' :: operandListText ops

theorem assemblyText_eq (i : Instr) : assemblyText i = mnemonicText i.mnemonic ++ operandPart (operandsOf i) := rfl

theorem comma_notMem_operandText {o : Operand} (h : o.Printable) : ',' ∉ ' ' :: operandText o := by
  intro hmem
  have hinner : isInner ',' := operandText_inner h _ (by simpa using hmem)
  exact absurd hinner (by decide)

/-- The commas of an operand list are those between its operands. -/
theorem splitAtChar_operandListText (o : Operand) (ops : List Operand) (h : ∀ a ∈ o :: ops, a.Printable) :
    splitAtChar ',' (' ' :: operandListText (o :: ops)) = (o :: ops).map fun a => ' ' :: operandText a := by
  induction ops generalizing o with
  | nil => exact splitAtChar_of_notMem (comma_notMem_operandText (h o List.mem_cons_self))
  | cons b rest ih =>
    obtain ⟨ho, hrest⟩ := List.forall_mem_cons.mp h
    have happend : ' ' :: operandListText (o :: b :: rest) =
        (' ' :: operandText o) ++ ',' :: (' ' :: operandListText (b :: rest)) := by simp [operandListText]
    rw [happend, splitAtChar_append (comma_notMem_operandText ho), ih b hrest]
    rfl

theorem trim_operandText {o : Operand} (h : o.Printable) : trim (' ' :: operandText o) = operandText o := by
  have hends := (endsInner_of_inner (operandText_ne_nil o) (operandText_inner h)).append_left [' ']
  have hfront := dropWhile_isBlank_append (operandText_ne_nil o) (operandText_inner h) []
  simpa [isBlank] using hends.trim_eq.trans (by simpa [isBlank] using hfront)

theorem endsInner_operandListText (o : Operand) (ops : List Operand) (h : ∀ a ∈ o :: ops, a.Printable) :
    EndsInner (operandListText (o :: ops)) := by
  induction ops generalizing o with
  | nil => exact endsInner_of_inner (operandText_ne_nil o) (operandText_inner (h o List.mem_cons_self))
  | cons b rest ih => exact (ih b (List.forall_mem_cons.mp h).2).append_left _

/-- Operands are read back from the part of the line they are written in. -/
theorem readOperands_operandPart {ops : List Operand} (h : ∀ o ∈ ops, o.Printable) :
    readOperands (operandPart ops) = some ops := by
  cases ops with
  | nil => rfl
  | cons o rest =>
    have hends : EndsInner (' ' :: operandListText (o :: rest)) :=
      (endsInner_operandListText o rest h).append_left [' ']
    have hne : trim (' ' :: operandListText (o :: rest)) ≠ [] := hends.trim_eq ▸ hends.dropWhile.ne_nil
    have hread : ∀ a ∈ o :: rest, readOperand (trim (' ' :: operandText a)) = some a := fun a ha => by
      rw [trim_operandText (h a ha), readOperand_operandText (h a ha)]
    simpa [operandPart, readOperands, hne, splitAtChar_operandListText o rest h, Function.comp_def] using
      allSome_map_some (g := id) hread

/-! ### A whole line -/

theorem semicolon_notMem_operandListText {ops : List Operand} (h : ∀ o ∈ ops, o.Printable) :
    ';' ∉ operandListText ops := by
  have hone : ∀ {o : Operand}, o.Printable → ';' ∉ operandText o := fun ho hmem =>
    absurd (operandText_inner ho _ hmem) (by decide)
  induction ops with
  | nil => simp [operandListText]
  | cons o rest ih =>
    obtain ⟨ho, hrest⟩ := List.forall_mem_cons.mp h
    cases rest with
    | nil => exact hone ho
    | cons b rest => simpa [operandListText] using ⟨hone ho, ih hrest⟩

/-- A written line has no comment. -/
theorem stripComment_assemblyText {i : Instr} (h : ∀ o ∈ operandsOf i, o.Printable) :
    stripComment (assemblyText i) = assemblyText i := by
  have hname : ';' ∉ mnemonicText i.mnemonic := fun hmem =>
    absurd (mnemonicText_inner i.mnemonic _ hmem) (by decide)
  have hops : ';' ∉ operandPart (operandsOf i) := by
    unfold operandPart
    split
    · simp
    · simpa using semicolon_notMem_operandListText h
  have hline : ';' ∉ assemblyText i := by simp [assemblyText_eq, hname, hops]
  rw [stripComment, List.takeWhile_eq_self_iff]
  intro c hc
  simpa using fun e : c = ';' => hline (e ▸ hc)

/-- A written line has no blanks at its ends. -/
theorem trim_assemblyText {i : Instr} (h : ∀ o ∈ operandsOf i, o.Printable) :
    trim (assemblyText i) = assemblyText i := by
  have hne := mnemonicText_ne_nil i.mnemonic
  have hinner := mnemonicText_inner i.mnemonic
  have hends : EndsInner (assemblyText i) := by
    rw [assemblyText_eq]
    cases hops : operandsOf i with
    | nil => simpa [operandPart] using endsInner_of_inner hne hinner
    | cons o rest =>
      have hlist := endsInner_operandListText o rest (hops ▸ h)
      exact (hlist.append_left [' ']).append_left _
  rw [hends.trim_eq, assemblyText_eq, dropWhile_isBlank_append hne hinner]

/-- The name of a written line is what stands before its first blank. -/
theorem takeWhile_assemblyText (i : Instr) :
    (assemblyText i).takeWhile (fun c => !isBlank c) = mnemonicText i.mnemonic := by
  have hpart : (operandPart (operandsOf i)).takeWhile (fun c => !isBlank c) = [] := by
    cases operandsOf i <;> rfl
  rw [assemblyText_eq, List.takeWhile_append_of_pos, hpart, List.append_nil]
  intro c hc
  simp [isBlank_of_isInner (mnemonicText_inner i.mnemonic c hc)]

/-! ### The command of a line -/

@[simp] theorem byteField_toNat {α : Type} (b : Byte) (f : Byte → α) : byteField b.toNat f = some (f b) := by
  simp [byteField, b.isLt]

theorem byteField_pair_toNat {α : Type} (a b : Byte) (f : Byte → Byte → α) :
    (byteField a.toNat fun a => byteField b.toNat (f a)).join = some (f a b) := by simp

/-- The round number of RKRD is written as a number and kept in a field of four bits (rule R73). -/
theorem assembleCommand_rkrd (rnd : BitVec 4) (idx : Byte) :
    assembleCommand .rkrd [.num rnd.toNat, .num idx.toNat] = some (.rkrd rnd idx) := by
  change (if rnd.toNat < 16 then byteField idx.toNat fun idx => Instr.rkrd (BitVec.ofNat 4 rnd.toNat) idx else none) = _
  simp [rnd.isLt]

/-- Rule R79: the operands written, in the order of the fields column, are the ones the command is made of. -/
theorem assembleCommand_operandsOf (i : Instr) : assembleCommand i.mnemonic (operandsOf i) = some i := by
  cases i with
  | ldi | brd | bst | bld | krd | mrd | cwi | trd | wrd | mpre | addrk | wload => exact byteField_toNat _ _
  | bwi | kwi | mwi | twi => exact byteField_pair_toNat _ _ _
  | rkrd rnd idx => exact assembleCommand_rkrd rnd idx
  | _ => rfl

/-- A number operand comes from a field of at most eight bits (rule R73). -/
theorem lt_of_num_mem_operandsOf {i : Instr} {n : Nat} (h : Operand.num n ∈ operandsOf i) : n < 256 := by
  cases i <;> simp [operandsOf] at h <;> omega

theorem printable_of_mem_operandsOf {i : Instr} (h : ∀ t, Operand.slot t ∈ operandsOf i → t.toNat < 8) :
    ∀ o ∈ operandsOf i, o.Printable := by
  intro o ho
  cases o with
  | reg r => trivial
  | slot t => exact h t ho
  | num n => exact lt_of_num_mem_operandsOf ho

/-- Settles O54: a written line has no comment and no outer blanks, its first blank ends the name, and the name and the
operands after it are each read back. -/
theorem assemblerReadsWhatIsWritten : Obligations.AssemblerReadsWhatIsWritten := by
  intro i hslots
  have hprint := printable_of_mem_operandsOf hslots
  have hne : assemblyText i ≠ [] := by simp [assemblyText_eq, mnemonicText_ne_nil]
  have hrest : (assemblyText i).drop (mnemonicText i.mnemonic).length = operandPart (operandsOf i) := by
    simp [assemblyText_eq]
  have hfind : (Mnemonic.all.find? fun m => mnemonicText m == mnemonicText i.mnemonic) = some i.mnemonic :=
    (Mnemonic.find?_all_eq_some mnemonicText_nodup).mpr rfl
  simp [assembleLine, stripComment_assemblyText hprint, trim_assemblyText hprint, hne, takeWhile_assemblyText, hrest,
    readOperands_operandPart hprint, hfind, assembleCommand_operandsOf]

end Sys2Proof.Machine

/-! PROOFS. The words of the formats as numbers, and the words whose operands fail the checks of rules R74 and R304. -/
namespace Sys2Proof

/-! ### The words of a format as numbers (rules R71, R72) -/

theorem toNat_wordN (op : Byte) : (wordN op).toNat = op.toNat * 0x1000000 := by simp [wordN, toNat_layout]

theorem toNat_wordA (op : Byte) (a : BitVec 4) : (wordA op a).toNat = op.toNat * 0x1000000 + a.toNat * 0x100000 := by
  simp [wordA, toNat_layout]

theorem toNat_wordI (op imm : Byte) : (wordI op imm).toNat = op.toNat * 0x1000000 + imm.toNat := by
  simp [wordI, toNat_layout]

theorem toNat_wordAB (op : Byte) (a b : BitVec 4) :
    (wordAB op a b).toNat = op.toNat * 0x1000000 + a.toNat * 0x100000 + b.toNat * 0x10000 := by
  simp [wordAB, toNat_layout]

theorem toNat_wordAI (op : Byte) (a : BitVec 4) (imm : Byte) :
    (wordAI op a imm).toNat = op.toNat * 0x1000000 + a.toNat * 0x100000 + imm.toNat := by
  simp [wordAI, toNat_layout]

/-- `C` is the upper half of `IDX`. -/
theorem toNat_wordABC (op : Byte) (a b c : BitVec 4) :
    (wordABC op a b c).toNat =
      op.toNat * 0x1000000 + a.toNat * 0x100000 + b.toNat * 0x10000 + c.toNat * 0x1000 := by
  have hidx : (c ++ 0#4).toNat = c.toNat * 16 := by rw [BitVec.toNat_append]; simp [Nat.shiftLeft_eq]
  rw [wordABC, toNat_layout, hidx]
  simp [mul_assoc]

theorem toNat_wordX (op idx : Byte) : (wordX op idx).toNat = op.toNat * 0x1000000 + idx.toNat * 0x100 := by
  simp [wordX, toNat_layout]

theorem toNat_wordXI (op idx imm : Byte) :
    (wordXI op idx imm).toNat = op.toNat * 0x1000000 + idx.toNat * 0x100 + imm.toNat := by
  simp [wordXI, toNat_layout]

theorem toNat_wordAX (op : Byte) (a : BitVec 4) (idx : Byte) :
    (wordAX op a idx).toNat = op.toNat * 0x1000000 + a.toNat * 0x100000 + idx.toNat * 0x100 := by
  simp [wordAX, toNat_layout]

theorem toNat_wordAXI (op : Byte) (a : BitVec 4) (idx imm : Byte) :
    (wordAXI op a idx imm).toNat = op.toNat * 0x1000000 + a.toNat * 0x100000 + idx.toNat * 0x100 + imm.toNat := by
  simp [wordAXI, toNat_layout]

/-! ### The check of a word's slots (rules R74, R304) is the check its meaning makes -/

open Machine

theorem isSome_table? (s : State) (n : SlotNum) : (s.table? n).isSome = slotExists n := by
  rw [Bool.eq_iff_iff, Option.isSome_iff_ne_none, ne_eq, State.table?_eq_none, not_le, slotExists, decide_eq_true_iff]

theorem table?_eq_none_iff {s : State} {n : SlotNum} : s.table? n = none ↔ slotExists n = false := by
  rw [← isSome_table? s, Option.isSome_eq_false_iff, Option.isNone_iff_eq_none]

theorem destSlot_eq_operandRange_iff {n : SlotNum} : destSlot n = .error .operandRange ↔ slotExists n = false := by
  simp [slotExists, destSlot_eq_error]

theorem destSlot_eq_readOnlyTable_iff {n : SlotNum} :
    destSlot n = .error .readOnlyTable ↔ slotExists n = true ∧ slotWritable n = false := by
  simp [slotExists, slotWritable, destSlot_eq_error, and_comm]

theorem slots_eq_operandRange_iff {s : State} {td ts : SlotNum} :
    s.slots td ts = .error .operandRange ↔ (slotExists td && slotExists ts) = false := by
  rw [State.slots_eq_error, table?_eq_none_iff, isSome_table?, destSlot_eq_operandRange_iff]
  cases slotExists ts <;> simp

theorem slots_eq_readOnlyTable_iff {s : State} {td ts : SlotNum} :
    s.slots td ts = .error .readOnlyTable ↔ (slotExists td && slotExists ts) = true ∧ slotWritable td = false := by
  rw [State.slots_eq_error, isSome_table?, destSlot_eq_readOnlyTable_iff]
  cases slotExists ts <;> simp

/-- Step 4 of rule R78: an operand out of range raises OperandRange, whichever the command and before other faults. -/
theorem exec_of_inRange_eq_false {i : Instr} (h : i.inRange = false) (s : State) :
    exec i s = raise .operandRange (encode i) s := by
  cases i with
  | nop | ldi | mov | rdx | rdq | rdsr | rdec | rdew | clrf | cwi | crd | wrd | gfmul | gfinv | xor
  | shrow | ishrow | mixc | imixc | keyexp | fwht | wmax => cases h
  | bwi | brd | bst | bld | kwi | krd | mwi | mrd | mpre | addrk =>
    simp only [Instr.inRange, decide_eq_false_iff_not, not_lt, ← checkRange_eq_none] at h
    simp only [exec, execBwi, execBrd, execBst, execBld, execKwi, execKrd, execMwi, execMrd, execMpre, execAddrk, h]
  | rkrd rnd idx =>
    simp only [Instr.inRange, Bool.and_eq_false_iff, decide_eq_false_iff_not, not_lt, ← checkRange_eq_none] at h
    obtain h | h := h <;> simp [exec, execRkrd, h]
  | trd | tld | sbchk | subb | encb | decb | wload | nl | sac | lap | dap | du | ad | bic | fixp =>
    have hs := (table?_eq_none_iff (s := s)).mpr h
    simp only [exec, execTrd, execTld, execSbchk, execSubb, execEncb, execDecb, execWload, execNl, execSac, execLap,
      execDap, execDu, execAd, execBic, execFixp, metric, hs]
  | twi | tst | sbgen =>
    have hd := destSlot_eq_operandRange_iff.mpr h
    simp only [exec, execTwi, execTst, execSbgen, hd]
  | tcpy | sbinv | sbinvl =>
    have hs := (slots_eq_operandRange_iff (s := s)).mpr h
    simp only [exec, execTcpy, execSbinv, execSbinvl, hs]

/-- Step 5 of rule R78: a read-only destination raises ReadOnlyTable once the operands are in range. -/
theorem exec_of_destWritable_eq_false {i : Instr} (hr : i.inRange = true) (h : i.destWritable = false) (s : State) :
    exec i s = raise .readOnlyTable (encode i) s := by
  cases i with
  | twi | tst | sbgen =>
    have hd := destSlot_eq_readOnlyTable_iff.mpr ⟨hr, h⟩
    simp only [exec, execTwi, execTst, execSbgen, hd]
  | tcpy | sbinv | sbinvl =>
    have hs := (slots_eq_readOnlyTable_iff (s := s)).mpr ⟨hr, h⟩
    simp only [exec, execTcpy, execSbinv, execSbinvl, hs]
  | _ => cases h

end Sys2Proof

/-! PROOFS. How a command ends, in the terms of the statements: it only answers, writes one register, one byte of `BLK`,
one table or `q`, or faults. -/
namespace Sys2Proof.Machine

open Statements

/-! ### Elements of the arrays (rule R54) -/

/-- An element write changes the element it names and no other. -/
theorem getElem_set_fin {α : Type} {n : Nat} (v : Vector α n) (i j : Fin n) (a : α) :
    (v.set i a)[j] = if j = i then a else v[j] := by
  rw [Fin.getElem_fin, Vector.getElem_set]
  simp only [Fin.ext_iff, Fin.getElem_fin, eq_comm]

/-! ### Endings (rules R12, R305) -/

theorem onlyResponds_of_exec {w : Nat} {i : Instr} {s : State} {v : BitVec w}
    (h : exec i s = respond s (v.setWidth 32)) : OnlyResponds i s v.toNat := by
  rw [OnlyResponds, answered, BitVec.ofNat_toNat]
  exact h

theorem writesRegister_of_exec {i : Instr} {s : State} {rd : RegNum} {v : Byte}
    (h : exec i s = done (s.setReg rd v)) : WritesRegister i s rd v :=
  ⟨_, h, fun r => s.reg_setReg rd r v, rfl⟩

theorem writesBlock_of_exec {i : Instr} {s : State} {k : Fin 16} {v : Byte}
    (h : exec i s = done (s.setBlkByte k v)) : WritesBlock i s fun j => if j = k then v else s.blk[j] :=
  ⟨_, h, fun j => getElem_set_fin s.blk k j v, rfl⟩

theorem writesTable_of_exec {i : Instr} {s : State} {d : Fin 4} {t : Table} {P : Table → Prop}
    (h : exec i s = done (s.setTable d t)) (hP : P t) : WritesTable i s d P := by
  refine ⟨_, h, ?_, fun e he => ?_, rfl⟩
  · simpa using hP
  · exact (getElem_set_fin s.tbl d e t).trans (if_neg he)

/-- An integer within the range of `q` is written and answered uncut (rules R24, R220, R226). -/
theorem writesQ_of_exec {i : Instr} {s : State} {n : Nat} {P : Nat → Prop} (h : exec i s = respondQ s n)
    (hn : n ≤ 32768) (hP : P n) : WritesQ i s P := by
  have hq : (BitVec.ofNat 16 n).toNat = n := Nat.mod_eq_of_lt (by omega)
  have hanswer :
      (⟨0, (BitVec.ofNat 16 n).setWidth 32⟩ : Response) = ⟨0, BitVec.ofNat 32 (BitVec.ofNat 16 n).toNat⟩ := by
    rw [BitVec.ofNat_toNat]
  exact ⟨_, h, hq.symm ▸ hP, congrArg (State.answer (s.withQ (BitVec.ofNat 16 n))) hanswer⟩

/-- Rule R303: an operand out of range, whichever the command. -/
theorem faultsWith_operandRange {i : Instr} {s : State} (h : i.inRange = false) : FaultsWith i s 2 :=
  exec_of_inRange_eq_false h s

/-- Rule R304: a read-only destination, whichever the command. -/
theorem faultsWith_readOnlyTable {i : Instr} {s : State} (hr : i.inRange = true) (h : i.destWritable = false) :
    FaultsWith i s 3 :=
  exec_of_destWritable_eq_false hr h s

end Sys2Proof.Machine

/-! PROOFS. Data movement (40_data_movement.md, rules R101 to R126) and WMAX (rule R226). -/
namespace Sys2Proof.Machine

open Statements

section
variable {s : State} {idx imm8 : Byte} {rd ra rb : RegNum}

/-! ### The meanings of the commands that check an operand, when it is in range -/

theorem exec_bwi_of_eq_val {i : Fin 16} (h : idx.toNat = i.val) :
    exec (.bwi idx imm8) s = done (s.setBlkByte i imm8) := by
  simp only [exec, execBwi, checkRange_eq_some.mpr h]

theorem exec_brd_of_eq_val {i : Fin 16} (h : idx.toNat = i.val) :
    exec (.brd idx) s = respond s (s.blk[i].setWidth 32) := by
  simp only [exec, execBrd, checkRange_eq_some.mpr h]

theorem exec_bst_of_eq_val {i : Fin 16} (h : idx.toNat = i.val) :
    exec (.bst ra idx) s = done (s.setBlkByte i (s.reg ra)) := by
  simp only [exec, execBst, checkRange_eq_some.mpr h]

theorem exec_bld_of_eq_val {i : Fin 16} (h : idx.toNat = i.val) :
    exec (.bld rd idx) s = done (s.setReg rd s.blk[i]) := by
  simp only [exec, execBld, checkRange_eq_some.mpr h]

theorem exec_kwi_of_eq_val {i : Fin 16} (h : idx.toNat = i.val) :
    exec (.kwi idx imm8) s = done ((s.setKeyByte i imm8).withSr (clearRkv s.sr)) := by
  simp only [exec, execKwi, checkRange_eq_some.mpr h]

theorem exec_krd_of_eq_val {i : Fin 16} (h : idx.toNat = i.val) :
    exec (.krd idx) s = respond s (s.key[i].setWidth 32) := by
  simp only [exec, execKrd, checkRange_eq_some.mpr h]

theorem exec_rkrd_of_eq_val {rnd : BitVec 4} {r : Fin 11} {i : Fin 16} (hr : rnd.toNat = r.val)
    (hi : idx.toNat = i.val) : exec (.rkrd rnd idx) s = respond s (s.rk[r][i].setWidth 32) := by
  simp only [exec, execRkrd, checkRange_eq_some.mpr hr, checkRange_eq_some.mpr hi]

theorem exec_mwi_of_eq_val {i : Fin 8} (h : idx.toNat = i.val) :
    exec (.mwi idx imm8) s = done (s.setMatRow i imm8) := by
  simp only [exec, execMwi, checkRange_eq_some.mpr h]

theorem exec_mrd_of_eq_val {i : Fin 8} (h : idx.toNat = i.val) :
    exec (.mrd idx) s = respond s (s.mat[i].setWidth 32) := by
  simp only [exec, execMrd, checkRange_eq_some.mpr h]

theorem exec_twi_of_eq_val {td : SlotNum} {d : Fin 4} (h : td.toNat = d.val) :
    exec (.twi td idx imm8) s = done (s.setTableEntry d idx imm8) := by
  simp only [exec, execTwi, destSlot_eq_ok.mpr h]

theorem exec_tst_of_eq_val {td : SlotNum} {d : Fin 4} (h : td.toNat = d.val) :
    exec (.tst td ra rb) s = done (s.setTableEntry d (s.reg ra) (s.reg rb)) := by
  simp only [exec, execTst, destSlot_eq_ok.mpr h]

theorem exec_trd_of_table? {ts : SlotNum} {t : Table} (h : s.table? ts = some t) :
    exec (.trd ts idx) s = respond s ((entry t idx).setWidth 32) := by
  simp only [exec, execTrd, h]

theorem exec_tld_of_table? {ts : SlotNum} {t : Table} (h : s.table? ts = some t) :
    exec (.tld rd ts ra) s = done (s.setReg rd (entry t (s.reg ra))) := by
  simp only [exec, execTld, h]

theorem exec_tcpy_of_table? {td ts : SlotNum} {d : Fin 4} {t : Table} (hd : td.toNat = d.val)
    (ht : s.table? ts = some t) : exec (.tcpy td ts) s = done (s.setTable d t) := by
  simp only [exec, execTcpy, State.slots_eq_ok.mpr ⟨destSlot_eq_ok.mpr hd, ht⟩]

end

/-! ### Registers and status (rules R101 to R109) -/

/-- Settles O18: neither command checks anything, so each ends as its meaning says. -/
theorem nopRespondsAndClrfClearsTheRecord : Obligations.NopRespondsAndClrfClearsTheRecord := fun _ =>
  ⟨⟨rfl, rfl⟩, toNat_wordN _, rfl⟩

/-- Settles O19: both commands are one register write. -/
theorem ldiAndMovWriteOneRegister : Obligations.LdiAndMovWriteOneRegister := fun _ _ _ _ =>
  ⟨⟨toNat_wordAI _ _ _, writesRegister_of_exec rfl⟩, toNat_wordAB _ _ _, writesRegister_of_exec rfl⟩

/-- `SR` as RDSR shows it is made of its two flags (rules R23, R106). -/
theorem readSr_eq_ofNat (sr : Byte) :
    readSr sr = BitVec.ofNat 32 ((sr.getLsbD 0).toNat + 2 * (sr.getLsbD 1).toNat) := by
  rw [readSr, bijFlag, rkvFlag]
  cases sr.getLsbD 0 <;> cases sr.getLsbD 1 <;> rfl

/-- Settles O20: each answers its register unchanged in value, RDSR by its two flags. -/
theorem readCommandsOnlyRespond : Obligations.ReadCommandsOnlyRespond := by
  intro ra s
  have hsr : OnlyResponds .rdsr s ((s.sr.getLsbD 0).toNat + 2 * (s.sr.getLsbD 1).toNat) := by
    rw [OnlyResponds, answered, ← readSr_eq_ofNat]
    rfl
  have hew : exec .rdew s = respond s (s.ew.setWidth 32) := congrArg (respond s) (BitVec.setWidth_eq s.ew).symm
  exact ⟨⟨toNat_wordA _ _, onlyResponds_of_exec rfl⟩, ⟨toNat_wordN _, onlyResponds_of_exec rfl⟩, ⟨toNat_wordN _, hsr⟩,
    ⟨toNat_wordN _, onlyResponds_of_exec rfl⟩, toNat_wordN _, onlyResponds_of_exec hew⟩

/-! ### The block register (rules R110 to R113) -/

/-- Settles O21: the operand check splits the two clauses. -/
theorem blockMovesTouchOneByte : Obligations.BlockMovesTouchOneByte := by
  intro rd ra idx imm8 s
  refine ⟨toNat_wordXI _ _ _, toNat_wordX _ _, toNat_wordAX _ _ _, toNat_wordAX _ _ _, fun i hi => ?_, fun hi => ?_⟩
  · exact ⟨writesBlock_of_exec (exec_bwi_of_eq_val hi), onlyResponds_of_exec (exec_brd_of_eq_val hi),
      writesBlock_of_exec (exec_bst_of_eq_val hi), writesRegister_of_exec (exec_bld_of_eq_val hi)⟩
  · have hidx : decide (idx.toNat < 16) = false := decide_eq_false (by omega)
    exact ⟨faultsWith_operandRange hidx, faultsWith_operandRange hidx, faultsWith_operandRange hidx,
      faultsWith_operandRange hidx⟩

/-! ### The key and the round keys (rules R114 to R116) -/

/-- KWI clears RKV and no other bit of `SR` (rule R114). -/
theorem getLsbD_clearRkv {k : Nat} (sr : Byte) (hk : k ≠ 1) : (clearRkv sr).getLsbD k = sr.getLsbD k := by
  rw [clearRkv, BitVec.getLsbD_and, Bool.and_eq_left_iff_imp]
  intro hset
  have hk8 := BitVec.lt_of_getLsbD hset
  have hmask : ∀ k < 8, k ≠ 1 → (0xFD#8).getLsbD k = true := by decide
  exact hmask k hk8 hk

/-- Settles O22: KWI is a key write and the clearing of RKV; the operand checks split the other clauses. -/
theorem keyMovesGuardTheRoundKeys : Obligations.KeyMovesGuardTheRoundKeys := by
  intro idx imm8 rnd s
  refine ⟨toNat_wordXI _ _ _, toNat_wordX _ _, toNat_wordAX _ _ _, fun i hi => ⟨?_, ?_, fun r hr => ?_⟩, fun hi => ?_,
    fun h => ?_⟩
  · exact ⟨_, exec_kwi_of_eq_val hi, fun j => getElem_set_fin s.key i j imm8, rkvFlag_clearRkv s.sr,
      fun k hk => getLsbD_clearRkv s.sr hk, rfl⟩
  · exact onlyResponds_of_exec (exec_krd_of_eq_val hi)
  · exact onlyResponds_of_exec (exec_rkrd_of_eq_val hr hi)
  · have hidx : decide (idx.toNat < 16) = false := decide_eq_false (by omega)
    exact ⟨faultsWith_operandRange hidx, faultsWith_operandRange hidx⟩
  · refine faultsWith_operandRange ?_
    rw [Instr.inRange, ← Bool.decide_and]
    exact decide_eq_false (by omega)

/-! ### The matrix and the constant (rules R117 to R120) -/

/-- Settles O23: the operand check splits the clauses of the rows; CWI and CRD check nothing. -/
theorem matrixMovesTouchOneRow : Obligations.MatrixMovesTouchOneRow := by
  intro idx imm8 s
  refine ⟨toNat_wordXI _ _ _, toNat_wordX _ _, toNat_wordI _ _, toNat_wordN _, fun i hi => ⟨?_, ?_⟩, fun hi => ?_, rfl,
    onlyResponds_of_exec rfl⟩
  · exact ⟨_, exec_mwi_of_eq_val hi, fun j => getElem_set_fin s.mat i j imm8, rfl⟩
  · exact onlyResponds_of_exec (exec_mrd_of_eq_val hi)
  · have hidx : decide (idx.toNat < 8) = false := decide_eq_false (by omega)
    exact ⟨faultsWith_operandRange hidx, faultsWith_operandRange hidx⟩

/-! ### The tables (rules R121 to R125) -/

/-- Settles O25: the slot checks split the clauses. -/
theorem tableMovesTouchOneTable : Obligations.TableMovesTouchOneTable := by
  intro td ts rd ra rb idx imm8 s
  refine ⟨toNat_wordAXI _ _ _ _, toNat_wordAX _ _ _, toNat_wordABC _ _ _ _, toNat_wordABC _ _ _ _, toNat_wordAB _ _ _,
    fun d hd => ⟨?_, ?_, fun t ht => ?_⟩, fun t ht => ⟨?_, ?_⟩, fun hd => ?_, fun hs => ?_, fun h => ?_, fun hd => ?_,
    fun h => ?_⟩
  · exact writesTable_of_exec (exec_twi_of_eq_val hd) fun v => entry_setEntry _ _ v _
  · exact writesTable_of_exec (exec_tst_of_eq_val hd) fun v => entry_setEntry _ _ v _
  · exact writesTable_of_exec (exec_tcpy_of_table? hd ht) fun _ => rfl
  · exact onlyResponds_of_exec (exec_trd_of_table? ht)
  · exact writesRegister_of_exec (exec_tld_of_table? ht)
  · have htd : slotExists td = false := decide_eq_false (by omega)
    exact ⟨faultsWith_operandRange htd, faultsWith_operandRange htd⟩
  · have hts : slotExists ts = false := decide_eq_false (by omega)
    exact ⟨faultsWith_operandRange hts, faultsWith_operandRange hts⟩
  · refine faultsWith_operandRange ?_
    rw [Instr.inRange, slotExists, slotExists, ← Bool.decide_and]
    exact decide_eq_false (by omega)
  · have htd : slotExists td = true := decide_eq_true (by omega)
    have hro : slotWritable td = false := decide_eq_false (by omega)
    exact ⟨faultsWith_readOnlyTable htd hro, faultsWith_readOnlyTable htd hro⟩
  · have hro : slotWritable td = false := decide_eq_false (by omega)
    refine faultsWith_readOnlyTable ?_ hro
    rw [Instr.inRange, slotExists, slotExists, ← Bool.decide_and]
    exact decide_eq_true (by omega)

/-! ### The Walsh array (rules R126, R226) -/

theorem maxOf_eq_max {l : List Nat} (h : l ≠ []) : maxOf l = l.max h := by
  rw [maxOf, List.foldl_max, List.max?_eq_some_max h]
  simp

/-- The largest value of a function over the members of a list. -/
theorem isMax_maxOf_map {α : Type} {D : α → Prop} {l : List α} {f : α → Nat} (hD : ∀ a, D a ↔ a ∈ l) (hl : l ≠ []) :
    IsMax D f (maxOf (l.map f)) := by
  have hne : l.map f ≠ [] := by simpa using hl
  rw [maxOf_eq_max hne]
  refine ⟨fun a ha => List.le_max_of_mem (List.mem_map_of_mem ((hD a).mp ha)), ?_⟩
  obtain ⟨a, ha, hmax⟩ := List.mem_map.mp (List.max_mem hne)
  exact ⟨a, (hD a).mpr ha, hmax⟩

/-- A 256-element array lists its entries in the order of the bytes. -/
theorem toList_eq_map_entry {α : Type} (t : Vector α 256) : t.toList = allBytes.map (entry t) := by
  refine List.ext_getElem (by simp) fun i hi _ => ?_
  have hlt : i < 256 := by simpa using hi
  simp [allBytes, entry, Nat.mod_eq_of_lt hlt]

/-- The magnitudes WMAX compares are those of all 256 elements (rule R226). -/
theorem isMax_walshMax (w : WalshArray) :
    IsMax (fun _ : Byte => True) (fun a => (entry w a).toInt.natAbs) (walshMax w) := by
  rw [walshMax, toList_eq_map_entry, List.map_map]
  exact isMax_maxOf_map (fun a => iff_of_true trivial (mem_allBytes a)) (List.ne_nil_of_mem (mem_allBytes 0))

/-- Settles O26: sign extension keeps the signed value, and the magnitudes are taken over all bytes. -/
theorem wrdAndWmaxReadTheWalshArray : Obligations.WrdAndWmaxReadTheWalshArray := by
  intro idx s
  refine ⟨toNat_wordX _ _, toNat_wordN _, ⟨_, BitVec.toInt_signExtend_of_le (by decide), rfl⟩, ?_⟩
  exact writesQ_of_exec rfl (walshMax_le s.w) (isMax_walshMax s.w)

end Sys2Proof.Machine

/-! PROOFS. The field GF(2^8) (41_gf256.md, rules R140 to R146): a byte as a polynomial, the multiplier's loop as the product
of polynomials modulo 0x11B, and the three commands. -/
namespace Sys2Proof.Machine

open Statements Polynomial

/-! ### Bytes as polynomials (rule R140) -/

@[simp] theorem poly_zero : poly 0 = 0 := by simp [poly]

/-- Exclusive-or is addition over GF(2). -/
@[simp] theorem poly_xor (a b : Byte) : poly (a ^^^ b) = poly a + poly b := by
  rw [poly, poly, poly, ← Finset.sum_add_distrib]
  refine Finset.sum_congr rfl fun k _ => ?_
  rw [BitVec.getLsbD_xor]
  cases a.getLsbD k <;> cases b.getLsbD k <;> simp [CharTwo.add_self_eq_zero]

/-- The low bit of a byte is its constant term. -/
theorem poly_eq_high_add_low (b : Byte) :
    poly b = (∑ k ∈ Finset.range 7, if b.getLsbD (k + 1) then X ^ (k + 1) else 0) + if b.getLsbD 0 then 1 else 0 :=
  Finset.sum_range_succ' _ 7

/-- The product by `X` moves every bit up, the high bit to the term of degree 8. -/
theorem X_mul_poly (b : Byte) :
    X * poly b =
      (∑ k ∈ Finset.range 7, if b.getLsbD k then X ^ (k + 1) else 0) + if b.getLsbD 7 then X ^ 8 else 0 := by
  simp only [poly, Finset.sum_range_succ _ 7, mul_add, Finset.mul_sum, mul_ite, mul_zero, ← pow_succ']

theorem poly_eq_X_mul_ushiftRight (b : Byte) : poly b = X * poly (b >>> 1) + if b.getLsbD 0 then 1 else 0 := by
  simp [X_mul_poly, poly_eq_high_add_low b, add_comm 1]

theorem X_mul_poly_eq_shiftLeft (a : Byte) : X * poly a = poly (a <<< 1) + if a.getLsbD 7 then X ^ 8 else 0 := by
  have hhigh : ∀ k ∈ Finset.range 7, (if (a <<< 1).getLsbD (k + 1) then X ^ (k + 1) else 0 : (ZMod 2)[X]) =
      if a.getLsbD k then X ^ (k + 1) else 0 := by
    intro k hk
    have hk8 : k + 1 < 8 := Nat.succ_lt_succ (Finset.mem_range.mp hk)
    rw [BitVec.getLsbD_shiftLeft]
    simp [hk8]
  rw [X_mul_poly, poly_eq_high_add_low (a <<< 1), Finset.sum_congr rfl hhigh]
  simp

/-- The constant 0x1B of the multiplier's loop is what remains of `X ^ 8` modulo 0x11B. -/
theorem poly_0x1B_add_reduction : poly 0x1B#8 + reduction = X ^ 8 := by
  have hpoly : poly 0x1B#8 = X ^ 4 + X ^ 3 + X + 1 := by
    simp [poly, Finset.sum_range_succ]
    ring
  have hred : reduction = X ^ 8 + poly 0x1B#8 := by
    rw [hpoly, reduction]
    ring
  rw [hred, add_comm, CharTwo.add_cancel_right]

/-- One shift-and-reduce is the product by `X`, less the reduction polynomial when the high bit is set. -/
theorem X_mul_poly_eq_xtime (a : Byte) : X * poly a = poly (xtime a) + if a.getLsbD 7 then reduction else 0 := by
  rw [X_mul_poly_eq_shiftLeft, xtime_eq]
  cases a.getLsbD 7 with
  | true => simp [add_assoc, poly_0x1B_add_reduction]
  | false => simp

/-- `xtime` is the product by `X` modulo the reduction polynomial. -/
theorem mk_poly_xtime (a : Byte) :
    AdjoinRoot.mk reduction (poly (xtime a)) = AdjoinRoot.mk reduction (X * poly a) := by
  rw [X_mul_poly_eq_xtime, map_add]
  cases a.getLsbD 7 <;> simp

/-! ### The multiplier (rule R141) -/

/-- `n` iterations multiply by a byte of `n` bits, modulo the reduction polynomial. -/
theorem mk_poly_gfMulLoop (n : Nat) (a : Byte) {b : Byte} (hb : b.toNat < 2 ^ n) :
    AdjoinRoot.mk reduction (poly (gfMulLoop n 0 a b)) = AdjoinRoot.mk reduction (poly a * poly b) := by
  induction n generalizing a b with
  | zero =>
    obtain rfl : b = 0 := BitVec.eq_of_toNat_eq (by simpa using hb)
    rw [gfMulLoop, poly_zero, mul_zero]
  | succ n ih =>
    have hshift : (b >>> 1).toNat < 2 ^ n := by
      rw [BitVec.toNat_ushiftRight, Nat.shiftRight_eq_div_pow]
      omega
    rw [gfMulLoop_zero_succ, poly_xor, map_add, ih _ hshift, map_mul, mk_poly_xtime,
      poly_eq_X_mul_ushiftRight b]
    cases b.getLsbD 0 with
    | true =>
      simp only [cond_true, if_true, map_mul, map_add, map_one]
      ring
    | false =>
      simp only [cond_false, poly_zero, Bool.false_eq_true, if_false, map_mul, map_add, map_zero]
      ring

/-- Settles O28: eight iterations are enough for any byte. -/
theorem gfMulIsThePolynomialProduct : Obligations.GfMulIsThePolynomialProduct := fun a b =>
  AdjoinRoot.mk_eq_mk.mp (mk_poly_gfMulLoop 8 a b.isLt).symm

/-! ### The laws of the field (rules R140, R143, R146) -/

/-- Settles O30: the multiplier is linear in its right operand, and the search for the inverse finds the only one. -/
theorem gfMulAssociatesDistributesHasUnitAndAtMostOneInverse :
    Obligations.GfMulAssociatesDistributesHasUnitAndAtMostOneInverse :=
  ⟨fun a b c => (gfMul_assoc a b c).symm, gfMul_linear_right, gfMul_one,
    fun _ _ h => (gfInv_eq_of_gfMul_eq_one h).symm⟩

/-- Settles O29 from the laws of the multiplier and the search of rule R143. -/
theorem gfMulCommutesAndInverseInverts : Obligations.GfMulCommutesAndInverseInverts :=
  ⟨gfMul_comm, fun _ => gfMul_gfInv, gfInv_zero⟩

/-! ### The commands (rules R142, R144, R145) -/

/-- Settles O27: each command is one register write, and the corner cases are laws of the multiplier. -/
theorem gfCommandsWriteOneRegister : Obligations.GfCommandsWriteOneRegister := by
  intro rd ra rb s
  refine ⟨toNat_wordABC _ _ _ _, toNat_wordAB _ _ _, toNat_wordABC _ _ _ _, writesRegister_of_exec rfl,
    writesRegister_of_exec rfl, writesRegister_of_exec rfl, fun b => ?_, by decide,
    gfInv_eq_of_gfMul_eq_one (gfMul_one 1)⟩
  exact ⟨zero_gfMul b, gfMul_zero b, one_gfMul b, gfInv_gfInv b⟩

end Sys2Proof.Machine

/-! PROOFS. The S-box generator and checker (42_sbox.md, rules R160 to R167, R170): the bits of an affine table, the
permutations among the tables, the input the inversion loop leaves at an output, and the four commands. -/
namespace Sys2Proof.Machine

open Statements

/-! ### The affine table (rule R161) -/

theorem getLsbD_fromAffine (m : Matrix) (c v : Byte) (r : Fin 8) :
    (entry (fromAffine m c) v).getLsbD (7 - r.val) = (parity (m[r] &&& gfInv v) ^^ c.getLsbD (7 - r.val)) := by
  rw [entry_fromAffine, BitVec.getLsbD_xor, getLsbD_matVec]

/-! ### Permutations (rule R170) -/

theorem permutation_aesSbox : Permutation Config.aesSbox := by
  rw [← fromAffine_aesPreset]
  exact permutation_fromAffine (fun v => ⟨_, matVec_aesMatInv v⟩) _

/-- Slot 5 reaches every byte, since it undoes slot 4. -/
theorem permutation_aesInv : Permutation Config.aesInv := by
  have honto : Function.Surjective (entry Config.aesInv) := fun v => ⟨_, entry_aesInv_aesSbox v⟩
  exact ⟨Finite.injective_iff_surjective.mpr honto, honto⟩

theorem not_permutation_tbl_reset (d : Fin 4) : ¬ Permutation State.reset.tbl[d] := fun h =>
  absurd (h.injective ((entry_tbl_reset d 0).trans (entry_tbl_reset d 1).symm)) (by decide)

/-! ### The inversion loop (rule R165) -/

/-- A later write overwrites an earlier one: an output ends with the last input of the list that maps to it. -/
theorem entry_foldl_setEntry_eq_find? (t : Table) (l : List Byte) (init : Table) (v : Byte) :
    entry (l.foldl (fun inv i => setEntry inv (entry t i) i) init) v =
      (l.reverse.find? fun i => entry t i == v).getD (entry init v) := by
  induction l generalizing init with
  | nil => rfl
  | cons i l ih =>
    rw [List.foldl_cons, ih, entry_setEntry, List.reverse_cons, List.find?_append]
    cases l.reverse.find? fun i => entry t i == v with
    | some j => rfl
    | none =>
      by_cases hv : v = entry t i
      · simp [hv]
      · simp [hv, Ne.symm hv]

theorem entry_invert_eq_find? (t : Table) (v : Byte) :
    entry (invert t) v = (allBytes.reverse.find? fun i => entry t i == v).getD 0 := by
  rw [invert, entry_foldl_setEntry_eq_find?, entry_replicate]

theorem allBytes_pairwise_lt : allBytes.Pairwise fun a b => a.toNat < b.toNat := by
  rw [allBytes, List.pairwise_map]
  refine List.pairwise_lt_range.imp_of_mem fun {a b} ha hb hab => ?_
  rw [List.mem_range] at ha hb
  simpa [Nat.mod_eq_of_lt ha, Nat.mod_eq_of_lt hb] using hab

/-- The loop visits the inputs in ascending order, so the last one at an output is the largest. -/
theorem entry_invert_largest {t : Table} {v : Byte} (h : ∃ x, entry t x = v) :
    entry t (entry (invert t) v) = v ∧ ∀ x, entry t x = v → x.toNat ≤ (entry (invert t) v).toNat := by
  obtain ⟨y, hy⟩ := h
  have hsome : (allBytes.reverse.find? fun i => entry t i == v).isSome :=
    List.find?_isSome.mpr ⟨y, List.mem_reverse.mpr (mem_allBytes y), by simpa using hy⟩
  obtain ⟨z, hz⟩ := Option.isSome_iff_exists.mp hsome
  rw [entry_invert_eq_find?, hz, Option.getD_some]
  obtain ⟨hzv, before, after, hsplit, hbefore⟩ := List.find?_eq_some_iff_append.mp hz
  refine ⟨by simpa using hzv, fun x hx => ?_⟩
  have hdesc := List.pairwise_reverse.mpr allBytes_pairwise_lt
  rw [hsplit, List.pairwise_append, List.pairwise_cons] at hdesc
  obtain ⟨-, ⟨hafter, -⟩, -⟩ := hdesc
  have hmem : x ∈ before ++ z :: after := hsplit ▸ List.mem_reverse.mpr (mem_allBytes x)
  rw [List.mem_append, List.mem_cons] at hmem
  obtain hxb | rfl | hxa := hmem
  · simpa [hx] using hbefore x hxb
  · exact le_rfl
  · exact (hafter x hxa).le

theorem entry_invert_of_not_exists {t : Table} {v : Byte} (h : ¬ ∃ x, entry t x = v) : entry (invert t) v = 0 := by
  have hnone : (allBytes.reverse.find? fun i => entry t i == v) = none :=
    List.find?_eq_none.mpr fun x _ hx => h ⟨x, by simpa using hx⟩
  rw [entry_invert_eq_find?, hnone, Option.getD_none]

/-! ### The checks of the slots (rules R74, R304) -/

theorem slotExists_and_eq_false {td ts : SlotNum} (h : 7 < td.toNat ∨ 7 < ts.toNat) :
    (slotExists td && slotExists ts) = false := by
  rw [slotExists, slotExists, ← Bool.decide_and]
  exact decide_eq_false (by omega)

theorem slotExists_and_eq_true {td ts : SlotNum} (hd : td.toNat ≤ 7) (hs : ts.toNat ≤ 7) :
    (slotExists td && slotExists ts) = true := by
  rw [slotExists, slotExists, ← Bool.decide_and]
  exact decide_eq_true (by omega)

theorem slotWritable_eq_false {td : SlotNum} (h : 4 ≤ td.toNat) : slotWritable td = false :=
  decide_eq_false (by omega)

/-! ### The meanings of the commands, when their slots pass the checks (rules R162, R164, R166, R167) -/

section
variable {s : State} {td ts : SlotNum} {d : Fin 4} {t : Table}

theorem exec_sbgen_of_eq_val (hd : td.toNat = d.val) :
    exec (.sbgen td) s = done (s.setTable d (fromAffine s.mat s.cst)) := by
  simp only [exec, execSbgen, destSlot_eq_ok.mpr hd]

theorem exec_sbchk_of_table? (ht : s.table? ts = some t) :
    exec (.sbchk ts) s = respond (s.withSr (setBij s.sr (isBijection t))) (if isBijection t then 1 else 0) := by
  simp only [exec, execSbchk, ht]

theorem exec_sbinv_of_permutation (hd : td.toNat = d.val) (ht : s.table? ts = some t) (hp : Permutation t) :
    exec (.sbinv td ts) s = done (s.setTable d (invert t)) := by
  simp only [exec, execSbinv, State.slots_eq_ok.mpr ⟨destSlot_eq_ok.mpr hd, ht⟩, isBijection_iff.mpr hp, if_true]

theorem exec_sbinv_of_not_permutation (hd : td.toNat = d.val) (ht : s.table? ts = some t) (hp : ¬ Permutation t) :
    exec (.sbinv td ts) s = raise .nonBijectiveSBox (encode (.sbinv td ts)) s := by
  simp only [exec, execSbinv, State.slots_eq_ok.mpr ⟨destSlot_eq_ok.mpr hd, ht⟩, isBijection_iff, hp, if_false]

theorem exec_sbinvl_of_table? (hd : td.toNat = d.val) (ht : s.table? ts = some t) :
    exec (.sbinvl td ts) s = done (s.setTable d (invert t)) := by
  simp only [exec, execSbinvl, State.slots_eq_ok.mpr ⟨destSlot_eq_ok.mpr hd, ht⟩]

end

/-! ### The statements -/

theorem toNat_wordB (op : Byte) (b : BitVec 4) : (wordB op b).toNat = op.toNat * 0x1000000 + b.toNat * 0x10000 := by
  simp [wordB, toNat_layout]

/-- Settles O31: the slot check splits the clauses, and the table written is the affine one. -/
theorem sbgenBuildsTheAffineTable : Obligations.SbgenBuildsTheAffineTable := by
  intro td s
  refine ⟨toNat_wordA _ _, fun d hd => ?_, fun h => ?_, fun ⟨hlow, hhigh⟩ => ?_⟩
  · exact writesTable_of_exec (exec_sbgen_of_eq_val hd) fun v r => getLsbD_fromAffine s.mat s.cst v r
  · exact faultsWith_operandRange (decide_eq_false (by omega))
  · exact faultsWith_readOnlyTable (decide_eq_true (by omega)) (slotWritable_eq_false hlow)

/-- SBCHK writes BIJ and no other bit of `SR` (rule R164). -/
theorem getLsbD_setBij {k : Nat} (sr : Byte) (b : Bool) (hk : k ≠ 0) : (setBij sr b).getLsbD k = sr.getLsbD k := by
  have hbij : (if b then 0x01 else 0x00 : Byte).getLsbD k = false := by
    cases b <;> simp [BitVec.getLsbD_one, hk]
  have hmask : ∀ k < 8, k ≠ 0 → (0xFE#8).getLsbD k = true := by decide
  rw [setBij, BitVec.getLsbD_or, BitVec.getLsbD_and, hbij, Bool.or_false, Bool.and_eq_left_iff_imp]
  exact fun hset => hmask k (BitVec.lt_of_getLsbD hset) hk

/-- Settles O32: the answer is the check of rule R170, which finds the permutations. -/
theorem sbchkDecidesBijectivity : Obligations.SbchkDecidesBijectivity := by
  intro ts s
  refine ⟨toNat_wordB _ _, fun t ht => ?_, fun h => faultsWith_operandRange (decide_eq_false (by omega)),
    permutation_aesSbox, permutation_aesInv, not_permutation_tbl_reset⟩
  have hdata : (if isBijection t then 1 else 0 : Word) = BitVec.ofNat 32 (isBijection t).toNat := by
    cases isBijection t <;> rfl
  have hexec := exec_sbchk_of_table? ht
  rw [hdata] at hexec
  exact ⟨isBijection t, _, isBijection_iff, hexec, bijFlag_setBij _ _, fun _ hk => getLsbD_setBij _ _ hk, rfl⟩

/-- Settles O33: the slot checks come first, then the check of rule R170 splits the tables. -/
theorem sbinvInvertsExactlyPermutations : Obligations.SbinvInvertsExactlyPermutations := by
  intro td ts s
  refine ⟨toNat_wordAB _ _ _, fun d t hd ht => ⟨fun hp => ?_, fun hp => ?_⟩, fun h => ?_, fun ⟨hlow, hd, hs⟩ => ?_⟩
  · exact writesTable_of_exec (exec_sbinv_of_permutation hd ht hp) (entry_invert hp.injective)
  · exact exec_sbinv_of_not_permutation hd ht hp
  · exact faultsWith_operandRange (slotExists_and_eq_false h)
  · exact faultsWith_readOnlyTable (slotExists_and_eq_true hd hs) (slotWritable_eq_false hlow)

/-- Settles O34: the slot checks are the only ones, and the loop leaves the largest input or the fill. -/
theorem sbinvlLastWriteWins : Obligations.SbinvlLastWriteWins := by
  intro td ts s
  refine ⟨toNat_wordAB _ _ _, fun d t hd ht => ?_, fun h => ?_, fun ⟨hlow, hd, hs⟩ => ?_⟩
  · exact writesTable_of_exec (exec_sbinvl_of_table? hd ht) fun _ => ⟨entry_invert_largest, entry_invert_of_not_exists⟩
  · exact faultsWith_operandRange (slotExists_and_eq_false h)
  · exact faultsWith_readOnlyTable (slotExists_and_eq_true hd hs) (slotWritable_eq_false hlow)

end Sys2Proof.Machine

/-! PROOFS. The host's use of the command port (rules R12, R17, R260): what issuing one command or a list of them leaves and
answers, and the S-box procedures (rules R163, R270, R271). -/
namespace Sys2Proof.Machine

open Statements

/-! ### Issuing commands -/

/-- A command that completes with a response (rule R12). -/
theorem issue_of_exec_respond {i : Instr} {s t : State} {v : Word} (h : exec i s = respond t v) :
    issue i s = (t.answer ⟨0, v⟩, ⟨0, v⟩) := by
  simp [issue, transact, deliver, decodeEncodeRoundTrip i, h, respond]

/-- A command that faults (rule R305). -/
theorem issue_of_exec_raise {i : Instr} {s t : State} {f : FaultCode} {c : Word} (h : exec i s = raise f c t) :
    issue i s = (t.faulted f c, ⟨f.code, 0⟩) := by
  simp [issue, transact, deliver, decodeEncodeRoundTrip i, h, raise]

theorem issueAll_cons (i : Instr) (is : List Instr) (s : State) :
    issueAll (i :: is) s = ((issueAll is (issue i s).1).1, (issue i s).2 :: (issueAll is (issue i s).1).2) := rfl

theorem issueAll_append_fst (is js : List Instr) (s : State) :
    (issueAll (is ++ js) s).1 = (issueAll js (issueAll is s).1).1 := by
  induction is generalizing s with
  | nil => rfl
  | cons i is ih => rw [List.cons_append, issueAll_cons, issueAll_cons, ih]

/-- Commands that each write one element of an array leave every element they name written and the others as they were. -/
theorem issueAll_writes {ι α : Type} [DecidableEq ι] {cmd : ι → Instr} {val : ι → α} {get : State → ι → α}
    (hcmd : ∀ s i j, get (issue (cmd i) s).1 j = if j = i then val i else get s j) (l : List ι) (s : State) (j : ι) :
    get (issueAll (l.map cmd) s).1 j = if j ∈ l then val j else get s j := by
  induction l generalizing s with
  | nil => simp [issueAll]
  | cons i l ih =>
    rw [List.map_cons, issueAll_cons, ih, hcmd]
    by_cases hj : j = i <;> simp [hj]

/-- Commands that answer from a state that has a property and keep it answer one by one. -/
theorem issueAll_answers {ι : Type} {P : State → Prop} {cmd : ι → Instr} {ans : ι → Response}
    (hcmd : ∀ s i, P s → P (issue (cmd i) s).1 ∧ (issue (cmd i) s).2 = ans i) (l : List ι) {s : State} (hs : P s) :
    (issueAll (l.map cmd) s).2 = l.map ans := by
  induction l generalizing s with
  | nil => rfl
  | cons i l ih =>
    obtain ⟨hnext, hans⟩ := hcmd s i hs
    rw [List.map_cons, issueAll_cons, ih hnext, hans, List.map_cons]

/-! ### Tables through the port (rules R121, R122, R271) -/

theorem getElem?_allBytes (v : Byte) : allBytes[v.toNat]? = some v := by
  simp [allBytes, v.isLt]

theorem readTable_snd_eq_tabulateBytes (ts : SlotNum) (s : State) :
    (readTable ts s).2 = tabulateBytes fun v =>
      ((issueAll (allBytes.map fun i => Instr.trd ts i) s).2.getD v.toNat ⟨0, 0⟩).byte := by
  rw [readTable]

/-- The 256 responses to TRD are the table in the slot. -/
theorem readTable_snd {ts : SlotNum} {s : State} {t : Table} (h : s.table? ts = some t) : (readTable ts s).2 = t := by
  have htrd : ∀ (u : State) (v : Byte), u.table? ts = some t →
      (issue (.trd ts v) u).1.table? ts = some t ∧ (issue (.trd ts v) u).2 = ⟨0, (entry t v).setWidth 32⟩ := by
    intro u v hu
    rw [issue_of_exec_respond (exec_trd_of_table? hu)]
    exact ⟨hu, rfl⟩
  have hanswers := issueAll_answers htrd allBytes h
  apply ext_entry
  intro v
  rw [readTable_snd_eq_tabulateBytes, entry_tabulateBytes, hanswers, List.getD_eq_getElem?_getD,
    List.getElem?_map, getElem?_allBytes]
  simp [Response.byte]

/-- The 256 TWI leave the caller's table in the slot. -/
theorem tbl_loadTable {td : SlotNum} {d : Fin 4} (hd : td.toNat = d.val) (sbox : Table) (s : State) :
    (loadTable td sbox s).tbl[d] = sbox := by
  have htwi : ∀ (u : State) (i v : Byte), entry (issue (.twi td i (entry sbox i)) u).1.tbl[d] v =
      if v = i then entry sbox i else entry u.tbl[d] v := by
    intro u i v
    rw [issue_of_exec_respond (exec_twi_of_eq_val hd)]
    simp [entry_setEntry]
  apply ext_entry
  intro v
  rw [loadTable, issueAll_writes (get := fun u => entry u.tbl[d]) htwi, if_pos (mem_allBytes v)]

theorem table?_loadTable {td : SlotNum} {d : Fin 4} (hd : td.toNat = d.val) (sbox : Table) (s : State) :
    (loadTable td sbox s).table? td = some sbox := by
  rw [State.table?_of_eq_val _ hd, tbl_loadTable hd]

/-! ### The matrix through the port (rules R80, R117, R119, R163) -/

/-- LDMAT leaves the given rows and the given constant. -/
theorem mat_cst_loadMatrixCommands (m : Matrix) (c : Byte) (s : State) :
    (issueAll (loadMatrixCommands m c) s).1.mat = m ∧ (issueAll (loadMatrixCommands m c) s).1.cst = c := by
  have hmwi : ∀ (u : State) (i j : Fin 8), (issue (.mwi (BitVec.ofNat 8 i.val) m[i]) u).1.mat[j] =
      if j = i then m[i] else u.mat[j] := by
    intro u i j
    have hi : (BitVec.ofNat 8 i.val).toNat = i.val := Nat.mod_eq_of_lt (by omega)
    rw [issue_of_exec_respond (exec_mwi_of_eq_val hi)]
    exact getElem_set_fin u.mat i j m[i]
  have hcwi (u : State) : (issueAll [.cwi c] u).1 = (u.withCst c).answer ⟨0, 0⟩ :=
    congrArg Prod.fst (issue_of_exec_respond rfl)
  rw [loadMatrixCommands, issueAll_append_fst, hcwi]
  constructor
  · apply Vector.ext
    intro j hj
    have hrow := issueAll_writes (get := fun u (j : Fin 8) => u.mat[j]) hmwi (List.finRange 8) s ⟨j, hj⟩
    rw [if_pos (List.mem_finRange _)] at hrow
    simpa using hrow
  · simp

/-- Rule R163: a row byte is the number whose bit `7 - k` is column `k`. -/
theorem rowByte_eq_ofBits (row : Vector Bool 8) :
    rowByte row = BitVec.ofNat 8 (Nat.ofBits fun i : Fin 8 => row[7 - i.val]) := by
  rw [rowByte]
  congr 1
  simp [List.finRange, Nat.ofBits, Fin.foldr_succ, Nat.shiftLeft_eq]
  omega

theorem getLsbD_rowByte (row : Vector Bool 8) (k : Fin 8) : (rowByte row).getLsbD (7 - k.val) = row[k] := by
  have hk : 7 - k.val < 8 := by omega
  have hback : 7 - (7 - k.val) = k.val := by omega
  rw [rowByte_eq_ofBits, BitVec.getLsbD_ofNat, Nat.testBit_ofBits_lt _ _ hk]
  simp [hk, hback]

/-! ### The procedures (rules R270, R271) -/

theorem invertSBox_eq_ite (sbox : Table) (s : State) :
    invertSBox sbox s =
      if (issue (.sbinv 1 0) (loadTable 0 sbox s)).2.status = FaultCode.nonBijectiveSBox.code then
        ((issue (.sbinv 1 0) (loadTable 0 sbox s)).1, .error .nonBijectiveSBox)
      else
        ((readTable 1 (issue (.sbinv 1 0) (loadTable 0 sbox s)).1).1,
          .ok (readTable 1 (issue (.sbinv 1 0) (loadTable 0 sbox s)).1).2) := by
  rw [invertSBox]

/-- SBINV writes slot 1, which is then read back. -/
theorem invertSBox_of_permutation {sbox : Table} (hp : Permutation sbox) (s : State) :
    ∃ t, invertSBox sbox s = (t, .ok (invert sbox)) := by
  have hslot := table?_loadTable (td := 0) (d := 0) rfl sbox s
  have hissue := issue_of_exec_respond (exec_sbinv_of_permutation (td := 1) (d := 1) rfl hslot hp)
  have hstatus : (0 : Byte) ≠ FaultCode.nonBijectiveSBox.code := by decide
  rw [invertSBox_eq_ite, hissue, if_neg hstatus, readTable_snd (t := invert sbox) (by simp [State.table?])]
  exact ⟨_, rfl⟩

/-- The host sees the fault of SBINV in its status. -/
theorem invertSBox_of_not_permutation {sbox : Table} (hp : ¬ Permutation sbox) (s : State) :
    ∃ t, invertSBox sbox s = (t, .error .nonBijectiveSBox) := by
  have hslot := table?_loadTable (td := 0) (d := 0) rfl sbox s
  have hissue := issue_of_exec_raise (exec_sbinv_of_not_permutation (td := 1) (d := 1) rfl hslot hp)
  rw [invertSBox_eq_ite, hissue, if_pos rfl]
  exact ⟨_, rfl⟩

theorem generateSBoxFromAffine_snd (m : Vector (Vector Bool 8) 8) (c : Byte) (s : State) :
    (generateSBoxFromAffine m c s).2 = fromAffine (tabulate 8 fun r => rowByte m[r]) c := by
  obtain ⟨hmat, hcst⟩ := mat_cst_loadMatrixCommands (tabulate 8 fun r => rowByte m[r]) c s
  rw [generateSBoxFromAffine]
  apply readTable_snd
  rw [issue_of_exec_respond (exec_sbgen_of_eq_val (td := 0) (d := 0) rfl), hmat, hcst]
  simp [State.table?]

/-- Settles O59: each procedure reads back the table its command leaves, whatever the state it starts from. -/
theorem sboxProceduresComputeTheirTables : Obligations.SboxProceduresComputeTheirTables := by
  refine ⟨fun sbox s => ⟨fun hp => ?_, fun hp => invertSBox_of_not_permutation hp s⟩,
    fun m c s v r => ⟨getLsbD_rowByte m[r], ?_⟩⟩
  · obtain ⟨t, ht⟩ := invertSBox_of_permutation hp s
    exact ⟨t, invert sbox, ht, entry_invert hp.injective⟩
  · rw [generateSBoxFromAffine_snd, getLsbD_fromAffine, getElem_fin_tabulate]

end Sys2Proof.Machine

/-! PROOFS. The stages of a round (rules R180 to R187) on values: what each does to a cell of the block, and which
undoes which. -/
namespace Sys2Proof.Machine

/-! ### Cells of a block (rules R57, R180) -/

/-- A byte of a block is the cell its index names. -/
theorem cell_eq_getElem (b : Block) {r c : Nat} {i : Fin 16} (h : 4 * (c % 4) + r % 4 = i.val) : cell b r c = b[i] := by
  simp [cell, h]

theorem getElem_ofCells (f : Nat → Nat → Byte) (i : Fin 16) : (ofCells f)[i] = f (i.val % 4) (i.val / 4) :=
  getElem_fin_tabulate _ i

/-- Rows and columns count modulo 4. -/
theorem cell_ofCells (f : Nat → Nat → Byte) (r c : Nat) : cell (ofCells f) r c = f (r % 4) (c % 4) := by
  have hrow : (4 * (c % 4) + r % 4) % 4 = r % 4 := by omega
  have hcol : (4 * (c % 4) + r % 4) / 4 = c % 4 := by omega
  simp [cell, ofCells, hrow, hcol]

theorem cell_congr (b : Block) {r r' c c' : Nat} (hr : r % 4 = r' % 4) (hc : c % 4 = c' % 4) :
    cell b r c = cell b r' c' := by
  simp [cell, hr, hc]

/-- Two blocks are equal when every cell is. -/
theorem ext_cell {b d : Block} (h : ∀ r c : Fin 4, cell b r c = cell d r c) : b = d := by
  apply ext_block
  intro i
  have hi : 4 * (i.val / 4 % 4) + i.val % 4 % 4 = i.val := by omega
  rw [← cell_eq_getElem b hi, ← cell_eq_getElem d hi]
  exact h ⟨i.val % 4, by omega⟩ ⟨i.val / 4, by omega⟩

/-! ### SubBytes and AddRoundKey (rules R181, R186) -/

theorem getElem_subBytes (b : Block) (t : Table) (i : Fin 16) : (subBytes b t)[i] = entry t b[i] :=
  getElem_fin_tabulate _ i

theorem getElem_addRoundKey (b k : Block) (i : Fin 16) : (addRoundKey b k)[i] = b[i] ^^^ k[i] :=
  getElem_fin_tabulate _ i

theorem subBytes_leftInverse {t u : Table} (h : ∀ x, entry u (entry t x) = x) :
    Function.LeftInverse (subBytes · u) (subBytes · t) := by
  intro b
  apply ext_block
  intro i
  rw [getElem_subBytes, getElem_subBytes, h]

theorem addRoundKey_leftInverse (k : Block) : Function.LeftInverse (addRoundKey · k) (addRoundKey · k) := by
  intro b
  apply ext_block
  intro i
  rw [getElem_addRoundKey, getElem_addRoundKey, BitVec.xor_assoc, BitVec.xor_self, BitVec.xor_zero]

/-! ### ShiftRows (rules R182, R183) -/

/-- Row `r` is rotated left by `r`. -/
theorem cell_shiftRows (b : Block) (r c : Nat) : cell (shiftRows b) r c = cell b r (c + r) := by
  rw [shiftRows, cell_ofCells]
  exact cell_congr b (by omega) (by omega)

/-- Row `r` is rotated right by `r`. -/
theorem cell_invShiftRows (b : Block) (r c : Nat) : cell (invShiftRows b) r c = cell b r (c + (4 - r % 4)) := by
  rw [invShiftRows, cell_ofCells]
  exact cell_congr b (by omega) (by omega)

theorem invShiftRows_leftInverse : Function.LeftInverse invShiftRows shiftRows := by
  intro b
  apply ext_cell
  intro r c
  rw [cell_invShiftRows, cell_shiftRows]
  exact cell_congr b rfl (by omega)

theorem shiftRows_leftInverse : Function.LeftInverse shiftRows invShiftRows := by
  intro b
  apply ext_cell
  intro r c
  rw [cell_shiftRows, cell_invShiftRows]
  exact cell_congr b rfl (by omega)

/-- The source indices `P` of rule R182. -/
theorem getElem_shiftRows (b : Block) (j : Fin 16) :
    (shiftRows b)[j] = b[(![0, 5, 10, 15, 4, 9, 14, 3, 8, 13, 2, 7, 12, 1, 6, 11] : Fin 16 → Fin 16) j] := by
  rw [shiftRows, getElem_ofCells]
  apply cell_eq_getElem
  revert j
  decide

/-- The source indices `Q` of rule R183. -/
theorem getElem_invShiftRows (b : Block) (j : Fin 16) :
    (invShiftRows b)[j] = b[(![0, 13, 10, 7, 4, 1, 14, 11, 8, 5, 2, 15, 12, 9, 6, 3] : Fin 16 → Fin 16) j] := by
  rw [invShiftRows, getElem_ofCells]
  apply cell_eq_getElem
  revert j
  decide

/-! ### MixColumns (rules R184, R185) -/

/-- The coefficients of rule R184. -/
def mixMatrix : Fin 4 → Fin 4 → Byte := ![![2, 3, 1, 1], ![1, 2, 3, 1], ![1, 1, 2, 3], ![3, 1, 1, 2]]

/-- The coefficients of rule R185. -/
def invMixMatrix : Fin 4 → Fin 4 → Byte := ![![14, 11, 13, 9], ![9, 14, 11, 13], ![13, 9, 14, 11], ![11, 13, 9, 14]]

/-- Row `r` of a matrix times a column, in the field. -/
def columnProduct (m : Fin 4 → Fin 4 → Byte) (a : Fin 4 → Byte) (r : Fin 4) : Byte :=
  gfMul (m r 0) (a 0) ^^^ gfMul (m r 1) (a 1) ^^^ gfMul (m r 2) (a 2) ^^^ gfMul (m r 3) (a 3)

/-- The coefficient 1, which the model leaves out, multiplies as the identity. -/
theorem mixColumnByte_eq_columnProduct (a : Fin 4 → Byte) (r : Fin 4) :
    mixColumnByte (a 0) (a 1) (a 2) (a 3) r = columnProduct mixMatrix a r := by
  fin_cases r <;> simp [mixColumnByte, columnProduct, mixMatrix]

theorem invMixColumnByte_eq_columnProduct (a : Fin 4 → Byte) (r : Fin 4) :
    invMixColumnByte (a 0) (a 1) (a 2) (a 3) r = columnProduct invMixMatrix a r := by
  fin_cases r <;> rfl

/-- Multiplying by two matrices in turn is multiplying by their product: `gfMul` distributes and associates. -/
theorem columnProduct_columnProduct (m n : Fin 4 → Fin 4 → Byte) (a : Fin 4 → Byte) (r : Fin 4) :
    columnProduct m (columnProduct n a) r = columnProduct (fun r j => columnProduct m (fun k => n k j) r) a r := by
  have hleft (x y z : Byte) : gfMul (x ^^^ y) z = gfMul x z ^^^ gfMul y z := gfMul_linear_left z x y
  simp only [columnProduct, gfMul_linear_right _ _ _, hleft, gfMul_assoc]
  ac_rfl

theorem columnProduct_one (a : Fin 4 → Byte) (r : Fin 4) :
    columnProduct (fun r j => if r = j then 1 else 0) a r = a r := by
  fin_cases r <;> simp [columnProduct]

/-- Multiplying by a matrix is undone by multiplying by its inverse. -/
theorem columnProduct_cancel {m n : Fin 4 → Fin 4 → Byte}
    (h : ∀ r j, columnProduct m (fun k => n k j) r = if r = j then 1 else 0) (a : Fin 4 → Byte) (r : Fin 4) :
    columnProduct m (columnProduct n a) r = a r := by
  simp only [columnProduct_columnProduct, h, columnProduct_one]

theorem cell_mixColumns (b : Block) (r c : Fin 4) :
    cell (mixColumns b) r c = columnProduct mixMatrix (fun k => cell b k c) r := by
  rw [mixColumns, cell_ofCells, Nat.mod_eq_of_lt r.isLt, Nat.mod_eq_of_lt c.isLt]
  exact mixColumnByte_eq_columnProduct (fun k => cell b k c) r

theorem cell_invMixColumns (b : Block) (r c : Fin 4) :
    cell (invMixColumns b) r c = columnProduct invMixMatrix (fun k => cell b k c) r := by
  rw [invMixColumns, cell_ofCells, Nat.mod_eq_of_lt r.isLt, Nat.mod_eq_of_lt c.isLt]
  exact invMixColumnByte_eq_columnProduct (fun k => cell b k c) r

/-- A block whose cells are the products of a matrix with the columns of another, in the bytes of both. -/
theorem getElem_of_cell_eq_columnProduct {b d : Block} {m : Fin 4 → Fin 4 → Byte}
    (h : ∀ r c : Fin 4, cell d r c = columnProduct m (fun k => cell b k c) r) (c r : Fin 4) :
    d[4 * c.val + r.val] =
      gfMul (m r 0) b[4 * c.val] ^^^ gfMul (m r 1) b[4 * c.val + 1] ^^^ gfMul (m r 2) b[4 * c.val + 2] ^^^
        gfMul (m r 3) b[4 * c.val + 3] := by
  have hbyte (e : Block) (k : Fin 4) : cell e k c = e[4 * c.val + k.val] :=
    cell_eq_getElem e (i := ⟨4 * c.val + k.val, by omega⟩) (by simp only; omega)
  rw [← hbyte, h]
  simp only [columnProduct, hbyte]
  rfl

/-- The product of the two printed matrices, in either order, is the identity (rule R187). -/
theorem invMixColumns_leftInverse : Function.LeftInverse invMixColumns mixColumns := by
  intro b
  apply ext_cell
  intro r c
  simp only [cell_invMixColumns, cell_mixColumns]
  exact columnProduct_cancel (by decide +kernel) (fun k => cell b k c) r

theorem mixColumns_leftInverse : Function.LeftInverse mixColumns invMixColumns := by
  intro b
  apply ext_cell
  intro r c
  simp only [cell_mixColumns, cell_invMixColumns]
  exact columnProduct_cancel (by decide +kernel) (fun k => cell b k c) r

end Sys2Proof.Machine

/-! PROOFS. The round commands (rules R181 to R187): what each writes, and what a run of them leaves in `BLK`. -/
namespace Sys2Proof.Machine

open Statements

/-! ### The meanings of the commands that check an operand, when the check passes -/

section
variable {s : State}

theorem exec_subb_of_table? {ts : SlotNum} {t : Table} (h : s.table? ts = some t) :
    exec (.subb ts) s = done (s.withBlk (subBytes s.blk t)) := by
  simp only [exec, execSubb, h]

theorem exec_addrk_of_eq_val {rnd : Byte} {r : Fin 11} (hr : rnd.toNat = r.val) (hk : rkvFlag s.sr = true) :
    exec (.addrk rnd) s = done (s.withBlk (addRoundKey s.blk s.rk[r])) := by
  simp only [exec, execAddrk, checkRange_eq_some.mpr hr, hk, if_true]

theorem exec_addrk_of_rkvFlag_eq_false {rnd : Byte} {r : Fin 11} (hr : rnd.toNat = r.val) (hk : rkvFlag s.sr = false) :
    exec (.addrk rnd) s = raise .keyNotExpanded (encode (.addrk rnd)) s := by
  simp [exec, execAddrk, checkRange_eq_some.mpr hr, hk]

end

/-! ### What each command writes -/

theorem writesBlock_of_exec_withBlk {i : Instr} {s : State} {b : Block} {f : Fin 16 → Byte}
    (h : exec i s = done (s.withBlk b)) (hf : ∀ j : Fin 16, b[j] = f j) : WritesBlock i s f :=
  ⟨_, h, hf, rfl⟩

/-- Settles O37: the slot check splits the clauses, and no property of the table is asked. -/
theorem subbSubstitutesEachByte : Obligations.SubbSubstitutesEachByte := by
  intro ts s
  refine ⟨toNat_wordB _ _, fun t ht => ?_, fun h => faultsWith_operandRange (decide_eq_false (by omega))⟩
  exact writesBlock_of_exec_withBlk (exec_subb_of_table? ht) (getElem_subBytes s.blk t)

/-- Settles O38: a row and a column of the rotated block, as an index. -/
theorem rowShiftsPermuteTheBlock : Obligations.RowShiftsPermuteTheBlock := fun s =>
  ⟨toNat_wordN _, toNat_wordN _, writesBlock_of_exec_withBlk rfl (getElem_shiftRows s.blk),
    writesBlock_of_exec_withBlk rfl (getElem_invShiftRows s.blk)⟩

/-- Settles O39: byte `r` of column `c` of the new block is row `r` of the matrix times the old column. -/
theorem mixColumnsMultipliesByItsMatrix : Obligations.MixColumnsMultipliesByItsMatrix := by
  intro s
  refine ⟨toNat_wordN _, toNat_wordN _, ?_⟩
  rintro i m (⟨rfl, rfl⟩ | ⟨rfl, rfl⟩)
  · exact ⟨_, rfl, rfl, getElem_of_cell_eq_columnProduct (cell_mixColumns s.blk)⟩
  · exact ⟨_, rfl, rfl, getElem_of_cell_eq_columnProduct (cell_invMixColumns s.blk)⟩

/-- Settles O40: the round is checked first, then RKV splits the clauses. -/
theorem addrkXorsTheRoundKey : Obligations.AddrkXorsTheRoundKey := by
  intro rnd s
  refine ⟨toNat_wordI _ _, fun r hr => ⟨fun hk => ?_, fun hk => ?_⟩, fun h => ?_⟩
  · exact writesBlock_of_exec_withBlk (exec_addrk_of_eq_val hr hk) (getElem_addRoundKey s.blk s.rk[r])
  · exact exec_addrk_of_rkvFlag_eq_false hr hk
  · exact faultsWith_operandRange (decide_eq_false (by omega))

/-! ### Running commands one after another (rule R17) -/

theorem runsTo_nil {s : State} {P : State → Prop} (h : P (s.withCmds [])) : RunsTo [] s P := ⟨_, rfl, h⟩

/-- A run goes on from the state its first command leaves, since no command touches the queue. -/
theorem runsTo_cons {i : Instr} {is : List Instr} {s u : State} {P : State → Prop}
    (hexec : exec i (s.withCmds (is.map encode)) = .next u) (hrest : RunsTo is u P) : RunsTo (i :: is) s P := by
  have hcmds : u.cmds = is.map encode := by
    obtain ⟨v, r, hv, hq, -⟩ := exec_answers i (s.withCmds (is.map encode))
    obtain rfl : u = v := by simpa [hexec] using hv
    exact hq
  have hstep : step (s.withCmds (encode i :: is.map encode)) = .next u :=
    (step_of_decode_ok rfl (decodeEncodeRoundTrip i)).trans hexec
  obtain ⟨t, hrun, ht⟩ := hrest
  rw [← hcmds] at hrun
  exact ⟨t, (run_succ_of_step Sys2Proof.core (s := s.withCmds (encode i :: is.map encode)) hstep _).trans hrun, ht⟩

/-! ### Stages: commands that replace `BLK` by a function of it -/

/-- The state has the tables, round keys and status register of `s`, all that a block command reads beside `BLK`. -/
def SameSetup (s u : State) : Prop := u.tbl = s.tbl ∧ u.rk = s.rk ∧ u.sr = s.sr

theorem SameSetup.trans {s u v : State} (h : SameSetup s u) (h' : SameSetup u v) : SameSetup s v := by
  obtain ⟨htbl, hrk, hsr⟩ := h
  obtain ⟨htbl', hrk', hsr'⟩ := h'
  exact ⟨htbl'.trans htbl, hrk'.trans hrk, hsr'.trans hsr⟩

/-- With the tables, round keys and status of `s`, the command applies `f` to `BLK` and does nothing else. -/
def Stage (s : State) (i : Instr) (f : Block → Block) : Prop :=
  ∀ u, SameSetup s u → exec i u = done (u.withBlk (f u.blk))

theorem stage_shrow (s : State) : Stage s .shrow shiftRows := fun _ _ => rfl

theorem stage_ishrow (s : State) : Stage s .ishrow invShiftRows := fun _ _ => rfl

theorem stage_mixc (s : State) : Stage s .mixc mixColumns := fun _ _ => rfl

theorem stage_imixc (s : State) : Stage s .imixc invMixColumns := fun _ _ => rfl

theorem stage_addrk {s : State} {rnd : Byte} {r : Fin 11} (hr : rnd.toNat = r.val) (hk : rkvFlag s.sr = true) :
    Stage s (.addrk rnd) (addRoundKey · s.rk[r]) := by
  rintro u ⟨-, hrk, hsr⟩
  rw [exec_addrk_of_eq_val hr (hsr ▸ hk), hrk]

theorem stage_subb {s : State} {ts : SlotNum} {t : Table} (h : s.table? ts = some t) :
    Stage s (.subb ts) (subBytes · t) := by
  rintro u ⟨htbl, -, -⟩
  have hu : u.table? ts = s.table? ts := by simp only [State.table?, htbl]
  exact exec_subb_of_table? (hu.trans h)

/-- Running a list of stages applies their functions to `BLK`, first to last. -/
theorem runsTo_stages (l : List (Instr × (Block → Block))) {s : State} (h : ∀ p ∈ l, Stage s p.1 p.2) :
    RunsTo (l.map Prod.fst) s (fun t => t.blk = l.foldl (fun b p => p.2 b) s.blk) := by
  induction l generalizing s with
  | nil => exact runsTo_nil rfl
  | cons p l ih =>
    obtain ⟨hp, hl⟩ := List.forall_mem_cons.mp h
    refine runsTo_cons (hp _ ⟨rfl, rfl, rfl⟩) (ih fun q hq u hu => hl q hq u ?_)
    exact SameSetup.trans ⟨rfl, rfl, rfl⟩ hu

/-- A stage and then one that undoes it leave `BLK` as it was. -/
theorem runsTo_pair_restores {s : State} {i j : Instr} {f g : Block → Block} (hi : Stage s i f) (hj : Stage s j g)
    (hgf : Function.LeftInverse g f) : RunsTo [i, j] s (fun t => t.blk = s.blk) := by
  have hrun := runsTo_stages [(i, f), (j, g)] (s := s) (by simp [hi, hj])
  simpa [hgf s.blk] using hrun

/-- Settles O41: each pair of commands is a pair of stages that are inverse on values. -/
theorem roundStagesUndoEachOther : Obligations.RoundStagesUndoEachOther := by
  intro s
  refine ⟨runsTo_pair_restores (stage_shrow s) (stage_ishrow s) invShiftRows_leftInverse,
    runsTo_pair_restores (stage_ishrow s) (stage_shrow s) shiftRows_leftInverse,
    runsTo_pair_restores (stage_mixc s) (stage_imixc s) invMixColumns_leftInverse,
    runsTo_pair_restores (stage_imixc s) (stage_mixc s) mixColumns_leftInverse, fun rnd hrnd hk => ?_,
    fun ts tu t u ht hu hundo => ?_⟩
  · have hround : Stage s (.addrk rnd) (addRoundKey · s.rk[rnd.toNat]) :=
      stage_addrk (r := ⟨rnd.toNat, by omega⟩) rfl hk
    exact runsTo_pair_restores hround hround (addRoundKey_leftInverse _)
  · exact runsTo_pair_restores (stage_subb ht) (stage_subb hu) (subBytes_leftInverse hundo)

end Sys2Proof.Machine

/-! PROOFS. The block engine (rules R200 to R206) on values: the round keys, and that decryption with the inverse table
undoes encryption. -/
namespace Sys2Proof.Machine

/-! ### The round keys (rule R200) -/

theorem getElem_keyExpansion (k : Block) (i : Nat) (h : i < 11) : (keyExpansion k)[i] = roundKey k i :=
  getElem_tabulate _ i h

theorem getElem_roundKey_succ (k : Block) (i : Nat) (j : Fin 16) :
    (roundKey k (i + 1))[j] = (roundKey k i)[j] ^^^ BitVec.ofNat 8 (((i + 1) * 17 + j.val) &&& 0xFF) := by
  rw [roundKey, getElem_addRoundKey, getElem_fin_tabulate]

/-- KEYEXP sets RKV and no other bit of `SR` (rule R201). -/
theorem getLsbD_setRkv {k : Nat} (sr : Byte) (hk : k ≠ 1) : (setRkv sr).getLsbD k = sr.getLsbD k := by
  have hmask : (0x02 : Byte).getLsbD k = false := by
    rw [show (0x02 : Byte) = BitVec.twoPow 8 1 from rfl, BitVec.getLsbD_twoPow]
    simp [Ne.symm hk]
  rw [setRkv, BitVec.getLsbD_or, hmask, Bool.or_false]

/-! ### Decryption undoes encryption (rule R206) -/

theorem addRoundKey_addRoundKey (b k : Block) : addRoundKey (addRoundKey b k) k = b := addRoundKey_leftInverse k b

/-- A full round is undone stage by stage, the last stage first. -/
theorem decryptRound_encryptRound {t u : Table} (h : ∀ x, entry u (entry t x) = x) (rk : RoundKeys) (b : Block)
    (n : Fin 11) : decryptRound rk u (encryptRound rk t b n) n = b := by
  rw [decryptRound, encryptRound, addRoundKey_addRoundKey, invMixColumns_leftInverse, invShiftRows_leftInverse]
  exact subBytes_leftInverse h b

/-- Steps that undo each other, run backwards over the reversed list, restore the start. -/
theorem foldl_reverse_foldl {α β : Type} {f g : β → α → β} (h : ∀ b a, g (f b a) a = b) (l : List α) (b : β) :
    l.reverse.foldl g (l.foldl f b) = b := by
  induction l generalizing b with
  | nil => rfl
  | cons a l ih => rw [List.foldl_cons, List.reverse_cons, List.foldl_append, ih, List.foldl_cons, List.foldl_nil, h]

/-- Decryption undoes the last round, then the full rounds in reverse order, then the first key. -/
theorem decryptBlock_leftInverse {t u : Table} (h : ∀ x, entry u (entry t x) = x) (rk : RoundKeys) :
    Function.LeftInverse (decryptBlock · rk u) (encryptBlock · rk t) := by
  intro b
  have hrounds (b : Block) :
      ([9, 8, 7, 6, 5, 4, 3, 2, 1] : List (Fin 11)).foldl (decryptRound rk u)
        (([1, 2, 3, 4, 5, 6, 7, 8, 9] : List (Fin 11)).foldl (encryptRound rk t) b) = b :=
    foldl_reverse_foldl (decryptRound_encryptRound h rk) [1, 2, 3, 4, 5, 6, 7, 8, 9] b
  have hlast (b : Block) :
      subBytes (invShiftRows (addRoundKey (addRoundKey (shiftRows (subBytes b t)) rk[10]) rk[10])) u = b := by
    rw [addRoundKey_addRoundKey, invShiftRows_leftInverse]
    exact subBytes_leftInverse h b
  simp only [decryptBlock, encryptBlock, hlast, hrounds]
  exact addRoundKey_addRoundKey b rk[0]

end Sys2Proof.Machine

/-! PROOFS. The commands of the key expansion and the block engine (rules R201 to R206): ENCB and DECB as single
stages, and as the lists of stages their rules print. -/
namespace Sys2Proof.Machine

open Statements

/-- Settles O42: round key `i` is the one before it XOR the formula's bytes. -/
theorem keyexpFollowsTheFormula : Obligations.KeyexpFollowsTheFormula := by
  intro s
  refine ⟨toNat_wordN _, _, rfl, fun j => ?_, fun i j => ?_, rkvFlag_setRkv s.sr,
    fun k hk => getLsbD_setRkv s.sr hk, rfl⟩
  · change (keyExpansion s.key)[0][j] = s.key[j]
    rw [getElem_keyExpansion, roundKey]
  · change (keyExpansion s.key)[i.val + 1][j] = (keyExpansion s.key)[i.val][j] ^^^ _
    rw [getElem_keyExpansion, getElem_keyExpansion, getElem_roundKey_succ]

/-! ### ENCB and DECB as one stage -/

theorem SameSetup.table?_eq {s u : State} (h : SameSetup s u) (ts : SlotNum) : u.table? ts = s.table? ts := by
  obtain ⟨htbl, -, -⟩ := h
  simp only [State.table?, htbl]

theorem exists_table?_eq_some {ts : SlotNum} (h : ts.toNat ≤ 7) (s : State) : ∃ t, s.table? ts = some t :=
  Option.ne_none_iff_exists'.mp fun hnone => absurd (State.table?_eq_none.mp hnone) (by omega)

section
variable {s : State} {ts : SlotNum} {t : Table}

/-- A command that is a stage, run at once. -/
theorem Stage.exec_eq {i : Instr} {f : Block → Block} (h : Stage s i f) : exec i s = done (s.withBlk (f s.blk)) :=
  h s ⟨rfl, rfl, rfl⟩

theorem stage_encb (ht : s.table? ts = some t) (hk : rkvFlag s.sr = true) :
    Stage s (.encb ts) (encryptBlock · s.rk t) := by
  intro u hu
  have ⟨_, hrk, hsr⟩ := hu
  simp only [exec, execEncb, hu.table?_eq ts, ht, hrk, hsr, hk, if_true]

theorem stage_decb (ht : s.table? ts = some t) (hk : rkvFlag s.sr = true) :
    Stage s (.decb ts) (decryptBlock · s.rk t) := by
  intro u hu
  have ⟨_, hrk, hsr⟩ := hu
  simp only [exec, execDecb, hu.table?_eq ts, ht, hrk, hsr, hk, if_true]

theorem exec_encb_of_rkvFlag_eq_false (ht : s.table? ts = some t) (hk : rkvFlag s.sr = false) :
    exec (.encb ts) s = raise .keyNotExpanded (encode (.encb ts)) s := by
  simp [exec, execEncb, ht, hk]

theorem exec_decb_of_rkvFlag_eq_false (ht : s.table? ts = some t) (hk : rkvFlag s.sr = false) :
    exec (.decb ts) s = raise .keyNotExpanded (encode (.decb ts)) s := by
  simp [exec, execDecb, ht, hk]

end

/-- Settles O45: the two commands are stages, and the second is inverse to the first on values. -/
theorem decbUndoesEncb : Obligations.DecbUndoesEncb := by
  rintro ts tu t u s ht hu hperm rfl hk
  exact runsTo_pair_restores (stage_encb ht hk) (stage_decb hu hk)
    (decryptBlock_leftInverse (entry_invert hperm.injective) s.rk)

/-! ### ENCB and DECB as forty stages (rules R203, R205) -/

/-- ADDRK of one round. -/
def keyStage (rk : RoundKeys) (n : Fin 11) : Instr × (Block → Block) :=
  (.addrk (BitVec.ofNat 8 n.val), (addRoundKey · rk[n]))

/-- The commands of rule R203, each with what it does to the block. -/
def encryptStages (ts : SlotNum) (t : Table) (rk : RoundKeys) : List (Instr × (Block → Block)) :=
  keyStage rk 0 ::
    (([1, 2, 3, 4, 5, 6, 7, 8, 9] : List (Fin 11)).flatMap fun n =>
      [(.subb ts, (subBytes · t)), (.shrow, shiftRows), (.mixc, mixColumns), keyStage rk n]) ++
    [(.subb ts, (subBytes · t)), (.shrow, shiftRows), keyStage rk 10]

/-- The commands of rule R205, each with what it does to the block. -/
def decryptStages (ts : SlotNum) (t : Table) (rk : RoundKeys) : List (Instr × (Block → Block)) :=
  [keyStage rk 10, (.ishrow, invShiftRows), (.subb ts, (subBytes · t))] ++
    (([9, 8, 7, 6, 5, 4, 3, 2, 1] : List (Fin 11)).flatMap fun n =>
      [keyStage rk n, (.imixc, invMixColumns), (.ishrow, invShiftRows), (.subb ts, (subBytes · t))]) ++
    [keyStage rk 0]

theorem map_fst_encryptStages (ts : SlotNum) (t : Table) (rk : RoundKeys) :
    (encryptStages ts t rk).map Prod.fst = encryptCommands ts := rfl

theorem map_fst_decryptStages (ts : SlotNum) (t : Table) (rk : RoundKeys) :
    (decryptStages ts t rk).map Prod.fst = decryptCommands ts := rfl

/-- The functions of the stages, applied in turn, are the block function of rule R202. -/
theorem foldl_encryptStages (ts : SlotNum) (t : Table) (rk : RoundKeys) (b : Block) :
    (encryptStages ts t rk).foldl (fun b p => p.2 b) b = encryptBlock b rk t := by
  simp only [encryptStages, List.foldl_append, List.foldl_cons, List.foldl_nil, List.foldl_flatMap]
  rfl

/-- The functions of the stages, applied in turn, are the block function of rule R204. -/
theorem foldl_decryptStages (ts : SlotNum) (t : Table) (rk : RoundKeys) (b : Block) :
    (decryptStages ts t rk).foldl (fun b p => p.2 b) b = decryptBlock b rk t := by
  simp only [decryptStages, List.foldl_append, List.foldl_cons, List.foldl_nil, List.foldl_flatMap]
  rfl

section
variable {s : State} {ts : SlotNum} {t : Table}

theorem stage_keyStage (hk : rkvFlag s.sr = true) (n : Fin 11) : Stage s (keyStage s.rk n).1 (keyStage s.rk n).2 :=
  stage_addrk (by rw [BitVec.toNat_ofNat]; omega) hk

theorem stage_of_mem_encryptStages (ht : s.table? ts = some t) (hk : rkvFlag s.sr = true) :
    ∀ p ∈ encryptStages ts t s.rk, Stage s p.1 p.2 := by
  rw [encryptStages, List.forall_mem_append, List.forall_mem_cons, List.forall_mem_flatMap]
  refine ⟨⟨stage_keyStage hk 0, fun n _ => ?_⟩, ?_⟩
  · simp [stage_keyStage hk, stage_subb ht, stage_shrow, stage_mixc]
  · simp [stage_keyStage hk, stage_subb ht, stage_shrow]

theorem stage_of_mem_decryptStages (ht : s.table? ts = some t) (hk : rkvFlag s.sr = true) :
    ∀ p ∈ decryptStages ts t s.rk, Stage s p.1 p.2 := by
  rw [decryptStages, List.forall_mem_append, List.forall_mem_append, List.forall_mem_flatMap, List.forall_mem_singleton]
  refine ⟨⟨?_, fun n _ => ?_⟩, stage_keyStage hk 0⟩
  · simp [stage_keyStage hk, stage_subb ht, stage_ishrow]
  · simp [stage_keyStage hk, stage_subb ht, stage_ishrow, stage_imixc]

/-- A command that does to `BLK` what a list of stages does leaves the block that running their commands leaves. -/
theorem Stage.runs_as_stages {i : Instr} {f : Block → Block} {l : List (Instr × (Block → Block))} {is : List Instr}
    (hi : Stage s i f) (hl : ∀ p ∈ l, Stage s p.1 p.2) (hcommands : l.map Prod.fst = is)
    (hblock : ∀ b, l.foldl (fun b p => p.2 b) b = f b) :
    ∃ t, exec i s = .next t ∧ t = { s with blk := t.blk, responses := answered s 0 } ∧
      RunsTo is s (fun u => u.blk = t.blk) := by
  have hrun := runsTo_stages l hl
  rw [hcommands, hblock] at hrun
  exact ⟨_, hi.exec_eq, rfl, hrun⟩

end

/-- Settles O43: ENCB is one stage and its forty commands are stages, with the same function of the block. -/
theorem encbRunsTheFortyCommands : Obligations.EncbRunsTheFortyCommands := by
  intro ts s
  refine ⟨toNat_wordB _ _, rfl, fun hts hk => ?_, fun hts hk => ?_,
    fun h => faultsWith_operandRange (decide_eq_false (by omega))⟩
  · obtain ⟨t, ht⟩ := exists_table?_eq_some hts s
    exact (stage_encb ht hk).runs_as_stages (stage_of_mem_encryptStages ht hk) (map_fst_encryptStages ts t s.rk)
      (foldl_encryptStages ts t s.rk)
  · obtain ⟨t, ht⟩ := exists_table?_eq_some hts s
    exact exec_encb_of_rkvFlag_eq_false ht hk

/-- Settles O44: as for ENCB, with the stages of decryption. -/
theorem decbRunsTheFortyCommands : Obligations.DecbRunsTheFortyCommands := by
  intro ts s
  refine ⟨toNat_wordB _ _, rfl, fun hts hk => ?_, fun hts hk => ?_,
    fun h => faultsWith_operandRange (decide_eq_false (by omega))⟩
  · obtain ⟨t, ht⟩ := exists_table?_eq_some hts s
    exact (stage_decb ht hk).runs_as_stages (stage_of_mem_decryptStages ht hk) (map_fst_decryptStages ts t s.rk)
      (foldl_decryptStages ts t s.rk)
  · obtain ⟨t, ht⟩ := exists_table?_eq_some hts s
    exact exec_decb_of_rkvFlag_eq_false ht hk

end Sys2Proof.Machine

/-! PROOFS. Transforms of a 256-element array that pass over the bits of the index one after another: the passes sum the
array against a product over the bits. The butterfly (rule R224) and the Möbius transform (rule R242) are two of them. -/
namespace Sys2Proof.Machine

/-! ### Sums over the bytes -/

theorem count_allBytes (v : Byte) : allBytes.count v = 1 :=
  List.count_eq_one_of_mem (allBytes_pairwise_lt.imp fun h e => h.ne (congrArg BitVec.toNat e)) (mem_allBytes v)

/-- A sum over the bytes with one term that is not zero. -/
theorem sum_allBytes_single {R : Type} [CommRing R] (f : Byte → R) (a : Byte) :
    (allBytes.map fun x => (if a = x then 1 else 0) * f x).sum = f a := by
  have hsum := List.sum_map_ite_eq allBytes f (fun _ => 0) a
  simp only [count_allBytes, one_smul, sub_zero, List.map_const', List.sum_replicate, smul_zero, add_zero] at hsum
  simpa only [ite_mul, one_mul, zero_mul, eq_comm] using hsum

/-! ### One bit of an index -/

theorem getLsbD_bit (i k : Fin 8) : (1#8 <<< i.val).getLsbD k.val = decide (k = i) := by
  revert i k
  decide

theorem getLsbD_xor_bit_self (v : Byte) (i : Fin 8) : (v ^^^ 1#8 <<< i.val).getLsbD i.val = !v.getLsbD i.val := by
  rw [BitVec.getLsbD_xor, getLsbD_bit, decide_eq_true rfl, Bool.xor_true]

theorem getLsbD_xor_bit_of_ne (v : Byte) {i k : Fin 8} (h : k ≠ i) :
    (v ^^^ 1#8 <<< i.val).getLsbD k.val = v.getLsbD k.val := by
  rw [BitVec.getLsbD_xor, getLsbD_bit, decide_eq_false h, Bool.xor_false]

theorem and_bit_eq_zero_iff {v : Byte} {i : Fin 8} : v &&& 1#8 <<< i.val = 0 ↔ v.getLsbD i.val = false := by
  have hne : BitVec.twoPow 8 i.val ≠ 0 := by
    revert i
    decide
  rw [← BitVec.twoPow_eq, BitVec.and_twoPow]
  cases v.getLsbD i.val
  · exact iff_of_true rfl rfl
  · exact iff_of_false hne (by decide)

/-- Adding a bit that is clear sets it. -/
theorem add_bit_of_getLsbD_eq_false {v : Byte} {i : Fin 8} (h : v.getLsbD i.val = false) :
    v + 1#8 <<< i.val = v ^^^ 1#8 <<< i.val := by
  have hor : ∀ p q : Bool, (p && q) = false → (p || q) = (p ^^ q) := by decide
  have hand := and_bit_eq_zero_iff.mpr h
  rw [BitVec.add_eq_or_of_and_eq_zero _ _ hand]
  apply BitVec.eq_of_getLsbD_eq
  intro k _
  have hk : (v.getLsbD k && (1#8 <<< i.val).getLsbD k) = false := by
    rw [← BitVec.getLsbD_and, hand]
    exact BitVec.getLsbD_zero
  rw [BitVec.getLsbD_or, BitVec.getLsbD_xor, hor _ _ hk]

/-- Subtracting a bit that is set clears it. -/
theorem sub_bit_of_getLsbD_eq_true {v : Byte} {i : Fin 8} (h : v.getLsbD i.val = true) :
    v - 1#8 <<< i.val = v ^^^ 1#8 <<< i.val := by
  have hclear : (v ^^^ 1#8 <<< i.val).getLsbD i.val = false := by rw [getLsbD_xor_bit_self, h, Bool.not_true]
  rw [sub_eq_iff_eq_add, add_bit_of_getLsbD_eq_false hclear, BitVec.xor_assoc, BitVec.xor_self, BitVec.xor_zero]

/-! ### Passes over the bits of the index -/

section
variable {R : Type} [CommRing R] {u : Bool → Bool → R}

/-- The factor of bit `k` after passes for the bits in `l`: the entry of `u` for a bit passed; the bits of the two indices
are equal where no pass was made. -/
def kernelFactor (u : Bool → Bool → R) (l : List (Fin 8)) (a x : Byte) (k : Fin 8) : R :=
  if k ∈ l then u (a.getLsbD k.val) (x.getLsbD k.val) else if a.getLsbD k.val = x.getLsbD k.val then 1 else 0

/-- What an array is summed against after passes for the bits in `l`. -/
def kernel (u : Bool → Bool → R) (l : List (Fin 8)) (a x : Byte) : R := ∏ k, kernelFactor u l a x k

theorem kernel_nil (a x : Byte) : kernel u [] a x = if a = x then 1 else 0 := by
  have hbits : (∀ k : Fin 8, a.getLsbD k.val = x.getLsbD k.val) ↔ a = x :=
    ⟨fun h => BitVec.eq_of_getLsbD_eq fun i hi => h ⟨i, hi⟩, fun h _ => h ▸ rfl⟩
  simp only [kernel, kernelFactor, List.not_mem_nil, if_false, Fintype.prod_boole, hbits]

/-- A kernel of all eight bits is a product of entries of `u`. -/
theorem kernel_of_forall_mem {l : List (Fin 8)} (hl : ∀ k, k ∈ l) (a x : Byte) :
    kernel u l a x = ∏ k : Fin 8, u (a.getLsbD k.val) (x.getLsbD k.val) :=
  Finset.prod_congr rfl fun k _ => if_pos (hl k)

/-- One more bit: the kernels at the two indices that differ in it, combined by `u`. -/
theorem kernel_concat {l : List (Fin 8)} {i : Fin 8} (hi : i ∉ l) (a x : Byte) :
    kernel u (l ++ [i]) a x = u (a.getLsbD i.val) (a.getLsbD i.val) * kernel u l a x +
      u (a.getLsbD i.val) (!a.getLsbD i.val) * kernel u l (a ^^^ 1#8 <<< i.val) x := by
  have hmore : ∀ k ∈ Finset.univ.erase i, kernelFactor u (l ++ [i]) a x k = kernelFactor u l a x k := fun k hk => by
    simp only [kernelFactor, List.mem_append, List.mem_singleton, Finset.ne_of_mem_erase hk, or_false]
  have hflip : ∀ k ∈ Finset.univ.erase i, kernelFactor u l (a ^^^ 1#8 <<< i.val) x k = kernelFactor u l a x k :=
    fun k hk => by simp only [kernelFactor, getLsbD_xor_bit_of_ne a (Finset.ne_of_mem_erase hk)]
  simp only [kernel, ← Finset.mul_prod_erase _ _ (Finset.mem_univ i), Finset.prod_congr rfl hmore,
    Finset.prod_congr rfl hflip, ← mul_assoc, ← add_mul]
  congr 1
  simp only [kernelFactor, getLsbD_xor_bit_self, List.mem_append, List.mem_singleton, or_true, if_true, hi, if_false]
  cases a.getLsbD i.val <;> cases x.getLsbD i.val <;> simp

/-- A pass for bit `i` combines the two entries whose indices differ in bit `i`, with the coefficients `u`. -/
def CombinesBit {α : Type} (val : α → R) (u : Bool → Bool → R) (pass : Vector α 256 → Fin 8 → Vector α 256) : Prop :=
  ∀ g i a, val (entry (pass g i) a) = u (a.getLsbD i.val) (a.getLsbD i.val) * val (entry g a) +
    u (a.getLsbD i.val) (!a.getLsbD i.val) * val (entry g (a ^^^ 1#8 <<< i.val))

section
variable {α : Type} {val : α → R} {pass : Vector α 256 → Fin 8 → Vector α 256} {l : List (Fin 8)}

/-- Passes for different bits, in any order, sum the array against their kernel. -/
theorem CombinesBit.foldl_eq_sum_kernel (hpass : CombinesBit val u pass) (hl : l.Nodup) (g : Vector α 256) (a : Byte) :
    val (entry (l.foldl pass g) a) = (allBytes.map fun x => kernel u l a x * val (entry g x)).sum := by
  induction l using List.reverseRecOn generalizing a with
  | nil => simp only [kernel_nil, sum_allBytes_single, List.foldl_nil]
  | append_singleton l i ih =>
    rw [List.nodup_append_comm, List.singleton_append, List.nodup_cons] at hl
    obtain ⟨hi, hl⟩ := hl
    rw [List.foldl_append, List.foldl_cons, List.foldl_nil, hpass, ih hl, ih hl]
    simp only [kernel_concat hi, add_mul, mul_assoc, List.sum_map_add, List.sum_map_mul_left]

/-- The passes for all eight bits, in any order. -/
theorem CombinesBit.foldl_eq_sum_prod (hpass : CombinesBit val u pass) (hl : l.Perm (List.finRange 8))
    (g : Vector α 256) (a : Byte) :
    val (entry (l.foldl pass g) a) =
      (allBytes.map fun x => (∏ k : Fin 8, u (a.getLsbD k.val) (x.getLsbD k.val)) * val (entry g x)).sum := by
  have hnodup := hl.nodup_iff.mpr (List.nodup_finRange 8)
  have hmem (k : Fin 8) : k ∈ l := hl.mem_iff.mpr (List.mem_finRange k)
  simp only [hpass.foldl_eq_sum_kernel hnodup, kernel_of_forall_mem hmem]

end

end

end Sys2Proof.Machine

/-! PROOFS. The Walsh-Hadamard unit (rules R221 to R225): the butterfly computes the spectrum of rule R223, on exact integers
and on 16-bit words; WLOAD and FWHT. -/
namespace Sys2Proof.Machine

open Statements

/-! ### Signs (rules R10, R223) -/

/-- `(-1)^p`. -/
def sign (p : Bool) : Int := if p then -1 else 1

theorem prod_map_sign {α : Type} (p : α → Bool) (l : List α) :
    (l.map fun k => sign (p k)).prod = sign (l.countP p % 2 == 1) := by
  induction l with
  | nil => rfl
  | cons k l ih =>
    rw [List.map_cons, List.prod_cons, ih, List.countP_cons]
    cases p k <;> obtain h | h := Nat.mod_two_eq_zero_or_one (l.countP p) <;> simp [sign, Nat.add_mod, h]

/-- The sign of a parity is the product of the signs of the bits. -/
theorem prod_sign_getLsbD (v : Byte) : ∏ k : Fin 8, sign (v.getLsbD k.val) = sign (parity v) := by
  rw [Fin.prod_univ_def, prod_map_sign, parity, hw, ← List.map_coe_finRange_eq_range, List.countP_map]
  rfl

/-! ### The butterfly (rule R224) -/

theorem spans_eq : spans = (List.finRange 8).map fun i => 1#8 <<< i.val := by decide

/-- The pair an entry belongs to, by the bit of its index. -/
theorem entry_butterflyStage {α : Type} (add sub : α → α → α) (g : Vector α 256) (i : Fin 8) (a : Byte) :
    entry (butterflyStage add sub g (1#8 <<< i.val)) a =
      bif a.getLsbD i.val then sub (entry g (a ^^^ 1#8 <<< i.val)) (entry g a)
      else add (entry g a) (entry g (a ^^^ 1#8 <<< i.val)) := by
  simp only [butterflyStage, entry_tabulateBytes, and_bit_eq_zero_iff]
  cases h : a.getLsbD i.val with
  | false => rw [if_pos rfl, add_bit_of_getLsbD_eq_false h, cond_false]
  | true => rw [if_neg (by decide), sub_bit_of_getLsbD_eq_true h, cond_true]

theorem combinesBit_butterflyStage :
    CombinesBit id (fun p q => sign (p && q))
      (fun g i => butterflyStage (· + ·) (· - ·) g (1#8 <<< i.val)) := by
  intro g i a
  rw [entry_butterflyStage]
  cases a.getLsbD i.val with
  | false => simp [sign]
  | true => simp [sign, sub_eq_neg_add]

/-- Rule R224 on exact integers: the eight stages compute the sum of rule R223. -/
theorem entry_walsh (g : Vector Int 256) (a : Byte) : entry (walsh g) a = spectrumAt g a := by
  have hstages := combinesBit_butterflyStage.foldl_eq_sum_prod (List.Perm.refl _) g a
  simp only [← BitVec.getLsbD_and, prod_sign_getLsbD, id_eq] at hstages
  rw [walsh, spans_eq, List.foldl_map, hstages, spectrumAt]
  congr 2
  funext x
  cases parity (a &&& x) <;> simp [sign]

/-! ### The butterfly on 16-bit words -/

/-- A stage on words is the stage on integers they stand for, cut to 16 bits. -/
theorem entry_butterflyStage_ofInt {w : WalshArray} {g : Vector Int 256}
    (hw : ∀ v, entry w v = BitVec.ofInt 16 (entry g v)) (h v : Byte) :
    entry (butterflyStage (· + ·) (· - ·) w h) v = BitVec.ofInt 16 (entry (butterflyStage (· + ·) (· - ·) g h) v) := by
  rw [butterflyStage, butterflyStage, entry_tabulateBytes, entry_tabulateBytes]
  split
  · rw [hw, hw, BitVec.ofInt_add]
  · rw [hw, hw, Int.sub_eq_add_neg, BitVec.ofInt_add, BitVec.ofInt_neg, BitVec.sub_eq_add_neg]

theorem entry_foldl_butterflyStage_ofInt (hs : List Byte) {w : WalshArray} {g : Vector Int 256}
    (hw : ∀ v, entry w v = BitVec.ofInt 16 (entry g v)) (v : Byte) :
    entry (hs.foldl (butterflyStage (· + ·) (· - ·)) w) v =
      BitVec.ofInt 16 (entry (hs.foldl (butterflyStage (· + ·) (· - ·)) g) v) := by
  induction hs generalizing w g with
  | nil => exact hw v
  | cons h hs ih => exact ih (entry_butterflyStage_ofInt hw h)

/-- Rule R224 on words: the spectrum of the signed values, modulo 2^16. -/
theorem entry_fwht (w : WalshArray) (a : Byte) :
    entry (fwht w) a = BitVec.ofInt 16 (spectrumAt (tabulateBytes fun x => (entry w x).toInt) a) := by
  rw [← entry_walsh]
  exact entry_foldl_butterflyStage_ofInt spans (fun v => by rw [entry_tabulateBytes, BitVec.ofInt_toInt]) a

/-! ### The commands (rules R222, R225) -/

/-- Rule R303 for a command whose one checked operand is the slot it reads. -/
theorem faultsWith_of_lt_slot {i : Instr} {ts : SlotNum} {s : State} (hi : i.inRange = slotExists ts)
    (h : 7 < ts.toNat) : FaultsWith i s 2 :=
  faultsWith_operandRange (hi.trans (decide_eq_false (by omega)))

theorem toNat_wordBI (op : Byte) (b : BitVec 4) (imm : Byte) :
    (wordBI op b imm).toNat = op.toNat * 0x1000000 + b.toNat * 0x10000 + imm.toNat := by
  simp [wordBI, toNat_layout]

theorem toInt_entry_walshLoad (t : Table) (mask x : Byte) :
    (entry (walshLoad t mask) x).toInt = 1 - 2 * ((parity (entry t x &&& mask)).toNat : Int) := by
  rw [walshLoad, entry_tabulateBytes]
  cases parity (entry t x &&& mask) <;> rfl

theorem exec_wload_of_table? {s : State} {ts : SlotNum} {t : Table} (ht : s.table? ts = some t) (mask : Byte) :
    exec (.wload ts mask) s = done (s.withW (walshLoad t mask)) := by
  simp only [exec, execWload, ht]

/-- Settles O46: the two words WLOAD writes are +1 and -1. -/
theorem wloadWritesTheComponentFunction : Obligations.WloadWritesTheComponentFunction := fun _ _ _ =>
  ⟨toNat_wordBI _ _ _, fun t ht => ⟨_, exec_wload_of_table? ht _, toInt_entry_walshLoad t _, rfl⟩,
    faultsWith_of_lt_slot rfl⟩

/-- Settles O47: the stages on words follow the stages on integers, which compute the spectrum. -/
theorem fwhtComputesTheWalshSpectrum : Obligations.FwhtComputesTheWalshSpectrum := by
  intro s
  refine ⟨toNat_wordN _, _, rfl, fun a => ?_, rfl⟩
  refine (entry_fwht s.w a).trans ?_
  rw [spectrumAt]
  congr 3
  funext x
  rw [entry_tabulateBytes, mul_ite, mul_neg, mul_one]

end Sys2Proof.Machine

/-! PROOFS. The metric commands (rules R220, R227 to R249): how each ends, what its integer is, and its range. -/
namespace Sys2Proof.Machine

open Statements

/-! ### How a metric command ends (rules R220, R249, R250) -/

section
variable {s : State} {ts : SlotNum} {t : Table} {P : Nat → Prop}

theorem writesQ_of_metric {i : Instr} {f : Table → Nat} {c : Word} (hexec : exec i s = metric f c ts s)
    (ht : s.table? ts = some t) (hle : f t ≤ 32768) (hP : P (f t)) : WritesQ i s P := by
  refine writesQ_of_exec (hexec.trans ?_) hle hP
  simp only [metric, ht]

theorem writesQ_nl (ht : s.table? ts = some t) (hP : P (nonLinearity t)) : WritesQ (.nl ts) s P :=
  writesQ_of_metric rfl ht ((nonLinearity_le t).trans (by decide)) hP

theorem writesQ_sac (ht : s.table? ts = some t) (hP : P (sacSum t)) : WritesQ (.sac ts) s P :=
  writesQ_of_metric rfl ht ((sacSum_le t).trans (by decide)) hP

theorem writesQ_lap (ht : s.table? ts = some t) (hP : P (lapMax t)) : WritesQ (.lap ts) s P :=
  writesQ_of_metric rfl ht ((lapMax_le t).trans (by decide)) hP

theorem writesQ_dap (ht : s.table? ts = some t) (hP : P (dapMax t)) : WritesQ (.dap ts) s P :=
  writesQ_of_metric rfl ht ((dapMax_le t).trans (by decide)) hP

theorem writesQ_du (ht : s.table? ts = some t) (hP : P (dapMax t)) : WritesQ (.du ts) s P :=
  writesQ_of_metric (f := diffUniformity) rfl ht ((dapMax_le t).trans (by decide)) hP

theorem writesQ_ad (ht : s.table? ts = some t) (hP : P (algebraicDegree t)) : WritesQ (.ad ts) s P :=
  writesQ_of_metric rfl ht ((algebraicDegree_le t).trans (by decide)) hP

theorem writesQ_bic (ht : s.table? ts = some t) (hP : P (bitIndependence t)) : WritesQ (.bic ts) s P :=
  writesQ_of_metric rfl ht ((bitIndependence_le t).trans (by decide)) hP

theorem writesQ_fixp (ht : s.table? ts = some t) (hP : P (fixedPoints t)) : WritesQ (.fixp ts) s P :=
  writesQ_of_metric rfl ht ((fixedPoints_le t).trans (by decide)) hP

end

/-! ### Largest and smallest of a list -/

theorem le_maxOf {l : List Nat} {a : Nat} (h : a ∈ l) : a ≤ maxOf l := by
  rw [maxOf_eq_max (List.ne_nil_of_mem h)]
  exact List.le_max_of_mem h

theorem maxOf_mem {l : List Nat} (h : maxOf l ≠ 0) : maxOf l ∈ l := by
  have hne : l ≠ [] := fun hnil => h (hnil ▸ rfl)
  rw [maxOf_eq_max hne]
  exact List.max_mem hne

theorem allBytes_ne_nil : allBytes ≠ [] := List.ne_nil_of_mem (mem_allBytes 0)

theorem nonzeroBytes_ne_nil : nonzeroBytes ≠ [] := List.ne_nil_of_mem (mem_nonzeroBytes.mpr (by decide : (1 : Byte) ≠ 0))

/-- The largest value of a function of two arguments, each over the members of a list. -/
theorem isMax_maxOf_maxOf {α β : Type} {D : α × β → Prop} {l : List α} {m : List β} {f : α → β → Nat}
    (hD : ∀ p, D p ↔ p.1 ∈ l ∧ p.2 ∈ m) (hl : l ≠ []) (hm : m ≠ []) :
    IsMax D (fun p => f p.1 p.2) (maxOf (l.map fun a => maxOf (m.map (f a)))) := by
  have houter := isMax_maxOf_map (f := fun a => maxOf (m.map (f a))) (fun a => Iff.refl (a ∈ l)) hl
  have hinner (a : α) := isMax_maxOf_map (f := f a) (fun b => Iff.refl (b ∈ m)) hm
  refine ⟨fun p hp => ?_, ?_⟩
  · obtain ⟨ha, hb⟩ := (hD p).mp hp
    exact ((hinner p.1).1 p.2 hb).trans (houter.1 p.1 ha)
  · obtain ⟨a, ha, hmax⟩ := houter.2
    obtain ⟨b, hb, hfab⟩ := (hinner a).2
    exact ⟨(a, b), (hD _).mpr ⟨ha, hb⟩, hfab.trans hmax⟩

theorem minOf_eq_min {l : List Nat} (h : l ≠ []) : minOf l = l.min h := by
  cases l with
  | nil => exact absurd rfl h
  | cons a l => rfl

/-! ### The spectrum of a component function (rules R221, R223, R233) -/

theorem sum_map_sign {α : Type} (p : α → Bool) (l : List α) :
    (l.map fun x => sign (p x)).sum = 2 * (l.countP fun x => !p x : Nat) - l.length := by
  induction l with
  | nil => rfl
  | cons x l ih =>
    rw [List.map_cons, List.sum_cons, ih, List.countP_cons, List.length_cons]
    cases p x <;> simp [sign] <;> ring

/-- Rule R233: the spectrum by the number of inputs at which the two masked parities agree. -/
theorem spectrumAt_component (t : Table) (b a : Byte) :
    spectrumAt (component t b) a =
      2 * ((allBytes.countP fun x => parity (x &&& a) == parity (entry t x &&& b) : Nat) : Int) - 256 := by
  have hterm (x : Byte) : (if parity (a &&& x) then -entry (component t b) x else entry (component t b) x) =
      sign (!(parity (x &&& a) == parity (entry t x &&& b))) := by
    rw [component, entry_tabulateBytes, BitVec.and_comm]
    cases parity (x &&& a) <;> cases parity (entry t x &&& b) <;> rfl
  simp only [spectrumAt, hterm, sum_map_sign, Bool.not_not, length_allBytes, Nat.cast_ofNat]

/-- The magnitudes of a component function's spectrum are those its butterfly leaves. -/
theorem natAbs_entry_walsh (t : Table) (b a : Byte) : (entry (walsh (component t b)) a).natAbs = magnitude t b a := by
  rw [entry_walsh, magnitude]

theorem even_magnitude (t : Table) (b a : Byte) : Even (magnitude t b a) := by
  rw [magnitude, spectrumAt_component, Int.natAbs_even]
  exact (even_two_mul _).sub (by decide)

/-! ### NL and BIC (rules R227, R228, R245) -/

/-- Twice the distance of mask `b` and the largest magnitude make 256: the halving of rule R227 is exact. -/
theorem nlMask_isDistance (t : Table) (b : Byte) :
    (∀ a, 2 * nlMask t b + magnitude t b a ≤ 256) ∧ ∃ a, 2 * nlMask t b + magnitude t b a = 256 := by
  have hmax : IsMax (fun _ => True) (magnitude t b) (maxOf ((walsh (component t b)).toList.map Int.natAbs)) := by
    rw [toList_eq_map_entry, List.map_map]
    simp only [Function.comp_def, natAbs_entry_walsh]
    exact isMax_maxOf_map (fun a => iff_of_true trivial (mem_allBytes a)) allBytes_ne_nil
  obtain ⟨hle, a, -, ha⟩ := hmax
  obtain ⟨n, hn⟩ := even_magnitude t b a
  have h256 : magnitude t b a ≤ 256 := natAbs_entry_walsh t b a ▸ natAbs_walsh_component_le t b a
  have hexact : 2 * nlMask t b + magnitude t b a = 256 := by
    rw [nlMask, ← ha]
    omega
  exact ⟨fun a' => hexact ▸ Nat.add_le_add_left (ha ▸ hle a' trivial) _, a, hexact⟩

/-- The smallest distance over a list of masks. -/
theorem minOf_nlMask_isDistance (t : Table) {masks : List Byte} (hne : masks ≠ []) :
    (∀ b ∈ masks, ∀ a, 2 * minOf (masks.map (nlMask t)) + magnitude t b a ≤ 256) ∧
      ∃ b ∈ masks, ∃ a, 2 * minOf (masks.map (nlMask t)) + magnitude t b a = 256 := by
  have hne' : masks.map (nlMask t) ≠ [] := by simpa using hne
  rw [minOf_eq_min hne']
  refine ⟨fun b hb a => ?_, ?_⟩
  · have hmin := List.min_le_of_mem (List.mem_map_of_mem (f := nlMask t) hb)
    have hdist := (nlMask_isDistance t b).1 a
    omega
  · obtain ⟨b, hb, hmin⟩ := List.mem_map.mp (List.min_mem hne')
    exact ⟨b, hb, hmin ▸ (nlMask_isDistance t b).2⟩

theorem mem_pairMasks {b : Byte} :
    b ∈ pairMasks ↔ ∃ i j : Fin 8, i < j ∧ (1#8 <<< i.val) ||| (1#8 <<< j.val) = b := by
  simp [pairMasks, Fin.exists_iff]

/-- Settles O48: both commands take the smallest distance over a list of masks. -/
theorem nlAndBicTakeTheSmallestDistance : Obligations.NlAndBicTakeTheSmallestDistance := by
  intro ts s
  refine ⟨toNat_wordB _ _, toNat_wordB _ _, fun t ht => ⟨writesQ_nl ht ?_, writesQ_bic ht ?_⟩,
    fun h => ⟨faultsWith_of_lt_slot rfl h, faultsWith_of_lt_slot rfl h⟩⟩
  · obtain ⟨hle, b, hb, a, ha⟩ := minOf_nlMask_isDistance t nonzeroBytes_ne_nil
    exact ⟨fun b a hb => hle b (mem_nonzeroBytes.mpr hb) a, b, a, mem_nonzeroBytes.mp hb, ha⟩
  · have hmem {i j : Fin 8} (hij : i < j) := mem_pairMasks.mpr ⟨i, j, hij, rfl⟩
    obtain ⟨hle, b, hb, a, ha⟩ := minOf_nlMask_isDistance t (List.ne_nil_of_mem (hmem (i := 0) (j := 1) (by decide)))
    obtain ⟨i, j, hij, rfl⟩ := mem_pairMasks.mp hb
    exact ⟨fun i j a hij => hle _ (hmem hij) a, i, j, a, hij, ha⟩

/-! ### SAC and FIXP (rules R230, R247) -/

theorem sacSum_eq_length (t : Table) :
    sacSum t = (allBytes.flatMap fun x => (List.range 8).flatMap fun b =>
      (List.range 8).filter fun k => (entry t x ^^^ entry t (x ^^^ (1#8 <<< b))).getLsbD k).length := by
  simp only [sacSum, hw, List.length_flatMap, List.countP_eq_length_filter]

theorem fixedPoints_eq_length (t : Table) : fixedPoints t = (allBytes.filter fun x => entry t x = x).length := by
  rw [fixedPoints, List.countP_eq_length_filter]
  rfl

/-- Settles O49: a Hamming weight is the number of the bits that are set. -/
theorem sacAndFixpCount : Obligations.SacAndFixpCount := fun _ _ =>
  ⟨toNat_wordB _ _, toNat_wordB _ _,
    fun t ht => ⟨writesQ_sac ht (sacSum_eq_length t), writesQ_fixp ht (fixedPoints_eq_length t)⟩,
    fun h => ⟨faultsWith_of_lt_slot rfl h, faultsWith_of_lt_slot rfl h⟩⟩

/-! ### LAP (rules R232, R233) -/

theorem isMax_lapMax (t : Table) :
    IsMax (fun p : Byte × Byte => p.1 ≠ 0 ∧ p.2 ≠ 0) (fun p => magnitude t p.1 p.2) (lapMax t) := by
  simp only [lapMax, natAbs_entry_walsh]
  exact isMax_maxOf_maxOf (fun p => and_congr mem_nonzeroBytes.symm mem_nonzeroBytes.symm) nonzeroBytes_ne_nil
    nonzeroBytes_ne_nil

/-- Settles O50: the largest magnitude over two lists, and the count of rule R233. -/
theorem lapTakesTheLargestBias : Obligations.LapTakesTheLargestBias := fun _ _ =>
  ⟨toNat_wordB _ _, fun t ht => ⟨writesQ_lap ht (isMax_lapMax t), fun a b => spectrumAt_component t b a⟩,
    faultsWith_of_lt_slot rfl⟩

/-! ### DAP and DU (rules R234, R236) -/

/-- A bucket holds the number of inputs counted into it. -/
theorem entry_foldl_count (key : Byte → Byte) (l : List Byte) (h : Vector Nat 256) (v : Byte) :
    entry (l.foldl (fun h x => setEntry h (key x) (entry h (key x) + 1)) h) v =
      entry h v + l.countP fun x => key x == v := by
  induction l generalizing h with
  | nil => rfl
  | cons x l ih =>
    rw [List.foldl_cons, ih, entry_setEntry, List.countP_cons]
    by_cases hv : v = key x
    · simp [hv]; omega
    · simp [hv, Ne.symm hv]

theorem entry_diffHistogram (t : Table) (dx dy : Byte) : entry (diffHistogram t dx) dy = diffCount t dx dy := by
  rw [diffHistogram, entry_foldl_count fun x => entry t x ^^^ entry t (x ^^^ dx), entry_replicate, zero_add, diffCount]

theorem isMax_dapMax (t : Table) :
    IsMax (fun p : Byte × Byte => p.1 ≠ 0) (fun p => diffCount t p.1 p.2) (dapMax t) := by
  have hbuckets (dx : Byte) : entry (diffHistogram t dx) = diffCount t dx := funext (entry_diffHistogram t dx)
  simp only [dapMax, toList_eq_map_entry, hbuckets]
  exact isMax_maxOf_maxOf (fun p => by simp [mem_nonzeroBytes, mem_allBytes]) nonzeroBytes_ne_nil
    allBytes_ne_nil

/-- Settles O51: DU is the integer of DAP, the largest bucket over the non-zero input differences. -/
theorem dapAndDuTakeTheLargestCount : Obligations.DapAndDuTakeTheLargestCount := fun _ _ =>
  ⟨toNat_wordB _ _, toNat_wordB _ _, fun t ht => ⟨writesQ_dap ht (isMax_dapMax t), writesQ_du ht (isMax_dapMax t)⟩,
    fun h => ⟨faultsWith_of_lt_slot rfl h, faultsWith_of_lt_slot rfl h⟩⟩

/-! ### AD (rules R242, R243) -/

/-- A truth value as an element of GF(2), where exclusive-or is addition. -/
def gf2 (p : Bool) : ZMod 2 := if p then 1 else 0

theorem gf2_injective : Function.Injective gf2 := by
  unfold Function.Injective
  decide

theorem gf2_mod_two (n : Nat) : gf2 (n % 2 == 1) = n := by
  rw [← ZMod.natCast_mod n 2]
  obtain h | h := Nat.mod_two_eq_zero_or_one n <;> rw [h] <;> rfl

theorem sum_map_gf2 {α : Type} (p : α → Bool) (l : List α) :
    (l.map fun x => gf2 (p x)).sum = gf2 (l.countP p % 2 == 1) := by
  rw [gf2_mod_two]
  induction l with
  | nil => rfl
  | cons x l ih =>
    rw [List.map_cons, List.sum_cons, ih, List.countP_cons]
    cases p x <;> simp [gf2, add_comm]

theorem entry_anfPass (g : Vector Bool 256) (i : Fin 8) (a : Byte) :
    entry (anfPass g i.val) a = (entry g a ^^ (a.getLsbD i.val && entry g (a ^^^ 1#8 <<< i.val))) := by
  simp only [anfPass, entry_tabulateBytes, and_bit_eq_zero_iff]
  cases a.getLsbD i.val <;> simp

/-- The same pass twice changes nothing. -/
theorem anfPass_anfPass (g : Vector Bool 256) (i : Fin 8) : anfPass (anfPass g i.val) i.val = g := by
  refine ext_entry fun a => ?_
  rw [entry_anfPass, entry_anfPass, entry_anfPass, getLsbD_xor_bit_self]
  cases a.getLsbD i.val <;> simp

theorem combinesBit_anfPass :
    CombinesBit gf2 (fun p q => if q = true → p = true then 1 else 0) (fun g i => anfPass g i.val) := by
  intro g i a
  rw [entry_anfPass]
  cases a.getLsbD i.val <;> cases entry g a <;> cases entry g (a ^^^ 1#8 <<< i.val) <;> decide

/-- The product over the bits of rule R242 is 1 for the indices whose bits are bits of `a`. -/
theorem prod_subset_eq_gf2 (a x : Byte) :
    (∏ k : Fin 8, if x.getLsbD k.val = true → a.getLsbD k.val = true then (1 : ZMod 2) else 0) = gf2 (x &&& a == x) := by
  have hsub : (∀ k : Fin 8, x.getLsbD k.val = true → a.getLsbD k.val = true) ↔ (x &&& a == x) = true := by
    rw [beq_iff_eq]
    refine ⟨fun h => BitVec.eq_of_getLsbD_eq fun k hk => ?_, fun h k hk => ?_⟩
    · rw [BitVec.getLsbD_and, Bool.and_eq_left_iff_imp]
      exact h ⟨k, hk⟩
    · rw [← h, BitVec.getLsbD_and, Bool.and_eq_true] at hk
      exact hk.2
  simp only [Fintype.prod_boole, hsub, gf2]

/-- Rule R242: an array is represented by its transform. The transform is undone by the same passes in reverse order, which
sum it over the subsets of an index. -/
theorem entry_eq_countP_anf (g : Vector Bool 256) (x : Byte) :
    entry g x = ((allBytes.countP fun j => entry (anf g) j && (j &&& x == j)) % 2 == 1) := by
  have hanf : anf g = (List.finRange 8).foldl (fun g i => anfPass g i.val) g := by
    rw [anf, ← List.map_coe_finRange_eq_range, List.foldl_map]
  have hback : (List.finRange 8).reverse.foldl (fun g i => anfPass g i.val) (anf g) = g := by
    rw [hanf]
    exact foldl_reverse_foldl anfPass_anfPass (List.finRange 8) g
  have hsum := combinesBit_anfPass.foldl_eq_sum_prod (List.reverse_perm _) (anf g) x
  apply gf2_injective
  rw [hback] at hsum
  rw [hsum, ← sum_map_gf2]
  congr 2
  funext j
  rw [prod_subset_eq_gf2]
  cases entry (anf g) j <;> cases j &&& x == j <;> rfl

/-- AD bounds the weight of every term, and is the weight of one unless it is 0. -/
theorem algebraicDegree_isDegree (t : Table) :
    (∀ (k : Fin 8) j, entry (anf (outputBit t k.val)) j = true → hw j ≤ algebraicDegree t) ∧
      (algebraicDegree t ≠ 0 → ∃ (k : Fin 8) (j : Byte),
        entry (anf (outputBit t k.val)) j = true ∧ hw j = algebraicDegree t) := by
  have hterm (k : Nat) (j : Byte) (hj : entry (anf (outputBit t k)) j = true) :
      hw j ∈ (allBytes.filter fun j => entry (anf (outputBit t k)) j).map hw :=
    List.mem_map_of_mem (List.mem_filter.mpr ⟨mem_allBytes j, hj⟩)
  refine ⟨fun k j hj => ?_, fun h => ?_⟩
  · exact (le_maxOf (hterm k j hj)).trans (le_maxOf (List.mem_map_of_mem (f := bitDegree t) (List.mem_range.mpr k.isLt)))
  · obtain ⟨k, hk, hdeg⟩ := List.mem_map.mp (maxOf_mem h)
    obtain ⟨j, hj, hwj⟩ := List.mem_map.mp (maxOf_mem (show bitDegree t k ≠ 0 from hdeg ▸ h))
    exact ⟨⟨k, List.mem_range.mp hk⟩, j, (List.mem_filter.mp hj).2, hwj.trans hdeg⟩

/-- Settles O52: the coefficients are the transforms of the output bits. -/
theorem adTakesTheLargestDegree : Obligations.AdTakesTheLargestDegree := by
  intro ts s
  refine ⟨toNat_wordB _ _, fun t ht => ⟨fun k j => entry (anf (outputBit t k.val)) j, fun k x => ?_,
    writesQ_ad ht (algebraicDegree_isDegree t)⟩, faultsWith_of_lt_slot rfl⟩
  rw [← entry_eq_countP_anf, outputBit, entry_tabulateBytes]

/-! ### The ranges (rule R220, column "range of q") -/

/-- The inputs 0 and 1 have the same output difference for the input difference 1. -/
theorem two_le_dapMax (t : Table) : 2 ≤ dapMax t := by
  have hsplit : allBytes = 0 :: 1 :: allBytes.drop 2 := rfl
  have hle : diffCount t 1 (entry t 0 ^^^ entry t 1) ≤ dapMax t := (isMax_dapMax t).1 (1, _) (by decide : (1 : Byte) ≠ 0)
  refine le_trans ?_ hle
  rw [diffCount, hsplit, List.countP_cons, List.countP_cons]
  simp [BitVec.xor_comm]

/-- Settles O53: the bounds that keep an integer from being cut, and the two inputs of each output difference. -/
theorem metricsStayInTheirRanges : Obligations.MetricsStayInTheirRanges := by
  intro ts s hts
  obtain ⟨t, ht⟩ := exists_table?_eq_some hts s
  exact ⟨writesQ_nl ht (nonLinearity_le t), writesQ_sac ht (sacSum_le t), writesQ_lap ht (lapMax_le t),
    writesQ_dap ht ⟨two_le_dapMax t, dapMax_le t⟩, writesQ_du ht ⟨two_le_dapMax t, dapMax_le t⟩,
    writesQ_ad ht (algebraicDegree_le t), writesQ_bic ht (bitIndependence_le t), writesQ_fixp ht (fixedPoints_le t),
    writesQ_of_exec rfl (walshMax_le s.w) (walshMax_le s.w)⟩

end Sys2Proof.Machine

/-! PROOFS. Padding and text at the host (rules R262, R263, R266, R267): padding is taken off again, hexadecimal and UTF-8
are read back, and what is no hexadecimal is refused. -/
namespace Sys2Proof.Machine

/-! ### Padding (rules R262, R263) -/

theorem pad_eq_append (b : List Byte) :
    pad b = b ++ List.replicate (16 - b.length % 16) (BitVec.ofNat 8 (16 - b.length % 16)) := rfl

theorem length_pad (b : List Byte) : (pad b).length = 16 * (b.length / 16 + 1) := by
  rw [pad_eq_append, List.length_append, List.length_replicate]
  omega

/-- `n` bytes of value `n` at the end are taken for padding and removed. -/
theorem unpad_append_replicate (b : List Byte) {n : Nat} (hpos : 0 < n) (hle : n ≤ 16) :
    unpad (b ++ List.replicate n (BitVec.ofNat 8 n)) = b := by
  have hlast : (b ++ List.replicate n (BitVec.ofNat 8 n)).getLast? = some (BitVec.ofNat 8 n) := by
    rw [List.getLast?_append, List.getLast?_replicate, if_neg hpos.ne', Option.some_or]
  have hvalue : (BitVec.ofNat 8 n).toNat = n := Nat.mod_eq_of_lt (by omega)
  have hrange : ¬(n = 0 ∨ 16 < n) := by omega
  simp [unpad, hlast, hvalue, hrange]

theorem unpad_pad (b : List Byte) : unpad (pad b) = b :=
  unpad_append_replicate b (by omega) (Nat.sub_le 16 _)

/-- Settles O55. -/
theorem unpadUndoesPad : Obligations.UnpadUndoesPad := fun b => ⟨unpad_pad b, length_pad b⟩

/-! ### Hexadecimal (rule R267) -/

theorem bytesToHex_cons (v : Byte) (b : List Byte) :
    bytesToHex (v :: b) = hexDigit (v.toNat / 16) :: hexDigit (v.toNat % 16) :: bytesToHex b := rfl

theorem length_bytesToHex (b : List Byte) : (bytesToHex b).length = 2 * b.length := by
  induction b with
  | nil => rfl
  | cons v b ih => simp [bytesToHex_cons, ih]; omega

theorem hexToBytes_bytesToHex (b : List Byte) : hexToBytes (bytesToHex b) = some b := by
  induction b with
  | nil => rfl
  | cons v b ih =>
    have hhigh : v.toNat / 16 < 16 := by omega
    have hlow : v.toNat % 16 < 16 := by omega
    have hbyte : 16 * (v.toNat / 16) + v.toNat % 16 = v.toNat := Nat.div_add_mod _ _
    simp [bytesToHex_cons, hexToBytes, hexValue_hexDigit, hhigh, hlow, ih, hbyte]

/-- Text that is read has an even length and digits only. -/
theorem even_and_digits_of_hexToBytes {h : Text} {b : List Byte} (hb : hexToBytes h = some b) :
    h.length % 2 = 0 ∧ ∀ c ∈ h, hexValue c ≠ none := by
  induction h using hexToBytes.induct generalizing b with
  | case1 => simp
  | case2 c => simp [hexToBytes] at hb
  | case3 hi lo rest x y bs hrest hlo hhi ih =>
    obtain ⟨heven, hdigits⟩ := ih hrest
    have hlength : (hi :: lo :: rest).length % 2 = 0 := by rw [List.length_cons, List.length_cons]; omega
    refine ⟨hlength, List.forall_mem_cons.mpr ⟨?_, List.forall_mem_cons.mpr ⟨?_, hdigits⟩⟩⟩
    · simp [hhi]
    · simp [hlo]
  | case4 hi lo rest hfail _ =>
    simp only [hexToBytes] at hb
    cases hb

theorem hexToBytes_eq_none {h : Text} (hbad : h.length % 2 = 1 ∨ ∃ c ∈ h, hexValue c = none) : hexToBytes h = none := by
  rw [Option.eq_none_iff_forall_ne_some]
  intro b hb
  obtain ⟨heven, hdigits⟩ := even_and_digits_of_hexToBytes hb
  rcases hbad with hodd | ⟨c, hc, hnone⟩
  · omega
  · exact hdigits c hc hnone

/-- Settles O58: both checks come before the first command. -/
theorem malformedCiphertextTouchesNothing : Obligations.MalformedCiphertextTouchesNothing := by
  refine ⟨fun c key ts s hlen => ?_, fun h key ts s hbad => ?_⟩
  · rw [decryptData, if_pos hlen]
  · rw [decrypt, hexToBytes_eq_none hbad]

/-! ### UTF-8 (rule R266) -/

theorem charOf?_toNat (c : Char) : charOf? c.toNat = some c := by
  rw [charOf?, if_pos (show c.toNat.isValidChar from c.valid), Char.ofNat_toNat]

theorem utf8TailValue_utf8Tail (n k : Nat) : utf8TailValue (utf8Tail n k) = some (n / 64 ^ k % 64) := by
  have hvalue : (utf8Tail n k).toNat = 0x80 + n / 64 ^ k % 64 := Nat.mod_eq_of_lt (by omega)
  rw [utf8TailValue, hvalue, if_pos (by omega)]
  congr 1
  omega

section
variable {b0 b1 b2 b3 : Byte} {t1 t2 t3 n : Nat} (rest : List Byte)

theorem utf8Next_of_one (hn : b0.toNat = n) (hlead : n < 0x80) :
    utf8Next (b0 :: rest) = (charOf? n).map fun c => (c, rest) := by
  simp [utf8Next, hn, hlead]

theorem utf8Next_of_two (hlow : 0xC2 ≤ b0.toNat) (hhigh : b0.toNat < 0xE0) (h1 : utf8TailValue b1 = some t1)
    (hn : (b0.toNat - 0xC0) * 64 + t1 = n) :
    utf8Next (b0 :: b1 :: rest) = (charOf? n).map fun c => (c, rest) := by
  have hmulti : ¬ b0.toNat < 0x80 := by omega
  simp [utf8Next, hmulti, h1, hlow, hhigh, hn]

theorem utf8Next_of_three (hlow : 0xE0 ≤ b0.toNat) (hhigh : b0.toNat < 0xF0) (h1 : utf8TailValue b1 = some t1)
    (h2 : utf8TailValue b2 = some t2) (hn : (b0.toNat - 0xE0) * 4096 + t1 * 64 + t2 = n) (hlong : 0x800 ≤ n) :
    utf8Next (b0 :: b1 :: b2 :: rest) = (charOf? n).map fun c => (c, rest) := by
  have hmulti : ¬ b0.toNat < 0x80 := by omega
  have htwo : ¬ b0.toNat < 0xE0 := by omega
  simp [utf8Next, hmulti, h1, htwo, h2, hlow, hhigh, hn, Nat.not_lt.mpr hlong]

theorem utf8Next_of_four (hlow : 0xF0 ≤ b0.toNat) (hhigh : b0.toNat < 0xF5) (h1 : utf8TailValue b1 = some t1)
    (h2 : utf8TailValue b2 = some t2) (h3 : utf8TailValue b3 = some t3)
    (hn : (b0.toNat - 0xF0) * 262144 + t1 * 4096 + t2 * 64 + t3 = n) (hlong : 0x10000 ≤ n) :
    utf8Next (b0 :: b1 :: b2 :: b3 :: rest) = (charOf? n).map fun c => (c, rest) := by
  have hmulti : ¬ b0.toNat < 0x80 := by omega
  have htwo : ¬ b0.toNat < 0xE0 := by omega
  have hthree : ¬ b0.toNat < 0xF0 := by omega
  simp [utf8Next, hmulti, h1, htwo, h2, hthree, h3, hlow, hhigh, hn, hlong]

end

/-- The first bytes of a text give the code point of its first character, by the number of bytes it takes. -/
theorem utf8Next_utf8Char_append (c : Char) (rest : List Byte) : utf8Next (utf8Char c ++ rest) = some (c, rest) := by
  have hmax : c.toNat ≤ 0x10FFFF := Char.toNat_le_max c
  have hlead {k : Nat} (hk : k < 256) : (BitVec.ofNat 8 k).toNat = k := Nat.mod_eq_of_lt hk
  have hchar : (charOf? c.toNat).map (fun d => (d, rest)) = some (c, rest) := by rw [charOf?_toNat, Option.map_some]
  rw [← hchar, utf8Char]
  split_ifs with hone htwo hthree
  · exact utf8Next_of_one rest (hlead (by omega)) hone
  · have hb0 : (BitVec.ofNat 8 (0xC0 + c.toNat / 64)).toNat = 0xC0 + c.toNat / 64 := hlead (by omega)
    exact utf8Next_of_two rest (by omega) (by omega) (utf8TailValue_utf8Tail _ 0) (by omega)
  · have hb0 : (BitVec.ofNat 8 (0xE0 + c.toNat / 4096)).toNat = 0xE0 + c.toNat / 4096 := hlead (by omega)
    exact utf8Next_of_three rest (by omega) (by omega) (utf8TailValue_utf8Tail _ 1) (utf8TailValue_utf8Tail _ 0)
      (by omega) (by omega)
  · have hb0 : (BitVec.ofNat 8 (0xF0 + c.toNat / 262144)).toNat = 0xF0 + c.toNat / 262144 := hlead (by omega)
    exact utf8Next_of_four rest (by omega) (by omega) (utf8TailValue_utf8Tail _ 2) (utf8TailValue_utf8Tail _ 1)
      (utf8TailValue_utf8Tail _ 0) (by omega) (by omega)

theorem utf8Char_ne_nil (c : Char) : utf8Char c ≠ [] := by
  unfold utf8Char
  dsimp only
  split_ifs <;> exact List.cons_ne_nil _ _

/-- One turn of the decoder takes one character off. -/
theorem utf8Decode_utf8Char_append (fuel : Nat) (c : Char) (rest : List Byte) :
    utf8Decode (fuel + 1) (utf8Char c ++ rest) = (utf8Decode fuel rest).map (c :: ·) := by
  have hnext := utf8Next_utf8Char_append c rest
  obtain ⟨b, bs, hbytes⟩ := List.exists_cons_of_ne_nil (List.append_ne_nil_of_left_ne_nil (utf8Char_ne_nil c) rest)
  rw [hbytes] at hnext ⊢
  rw [utf8Decode, hnext]

theorem utf8Decode_stringToBytes (t : Text) {fuel : Nat} (hfuel : t.length ≤ fuel) :
    utf8Decode fuel (stringToBytes t) = some t := by
  induction t generalizing fuel with
  | nil => cases fuel <;> rfl
  | cons c t ih =>
    obtain ⟨fuel, rfl⟩ : ∃ k, fuel = k + 1 := Nat.exists_eq_add_one.mpr (Nat.lt_of_lt_of_le (Nat.succ_pos _) hfuel)
    rw [stringToBytes, List.flatMap_cons, utf8Decode_utf8Char_append]
    rw [← stringToBytes, ih (Nat.le_of_succ_le_succ hfuel), Option.map_some]

theorem length_le_length_stringToBytes (t : Text) : t.length ≤ (stringToBytes t).length := by
  induction t with
  | nil => exact Nat.le_refl 0
  | cons c t ih =>
    have hpos := List.length_pos_of_ne_nil (utf8Char_ne_nil c)
    rw [stringToBytes, List.flatMap_cons, List.length_append, ← stringToBytes, List.length_cons]
    omega

/-- Settles O56: each code is read back a byte or a character at a time. -/
theorem hexAndUtf8RoundTrip : Obligations.HexAndUtf8RoundTrip :=
  ⟨fun b => ⟨hexToBytes_bytesToHex b, length_bytesToHex b⟩,
    fun t => utf8Decode_stringToBytes t (length_le_length_stringToBytes t)⟩

end Sys2Proof.Machine

/-! PROOFS. The binary interface of the host (rules R264, R265, R276): byte sequences as whole blocks, what LDBLK, LDKEY and
RDBLK leave and answer, and that running a stage over the blocks of a sequence applies its function to each. -/
namespace Sys2Proof.Machine

/-! ### Blocks of a byte sequence (rules R264, R265) -/

/-- The bytes of a list of blocks, in order. -/
def blockBytes (l : List Block) : List Byte := l.flatMap Vector.toList

theorem blockBytes_cons (b : Block) (l : List Block) : blockBytes (b :: l) = b.toList ++ blockBytes l := rfl

theorem length_blockBytes (l : List Block) : (blockBytes l).length = 16 * l.length := by
  induction l with
  | nil => rfl
  | cons b l ih => rw [blockBytes_cons, List.length_append, Vector.length_toList, ih, List.length_cons]; omega

/-- A sequence of whole blocks is the bytes of its blocks. -/
theorem exists_blockBytes_eq {n : Nat} {b : List Byte} (h : b.length = 16 * n) :
    ∃ l, blockBytes l = b ∧ l.length = n := by
  induction n generalizing b with
  | zero => exact ⟨[], (List.eq_nil_of_length_eq_zero h).symm, rfl⟩
  | succ n ih =>
    obtain ⟨l, hbytes, hlength⟩ := ih (b := b.drop 16) (by rw [List.length_drop]; omega)
    have hfirst : (b.take 16).toArray.size = 16 := by
      rw [List.size_toArray, List.length_take]
      omega
    refine ⟨⟨(b.take 16).toArray, hfirst⟩ :: l, ?_, by rw [List.length_cons, hlength]⟩
    rw [blockBytes_cons, hbytes]
    exact List.take_append_drop 16 b

theorem blockAt_toList_append (b : Block) (l : List Byte) : blockAt (b.toList ++ l) 0 = b := by
  apply ext_block
  intro i
  have hi : i.val < b.toList.length := by simp
  rw [blockAt, getElem_fin_tabulate, Nat.zero_add, List.getD_append _ _ _ _ hi]
  simp

theorem blockAt_append_of_length (b : Block) (l : List Byte) (n : Nat) :
    blockAt (b.toList ++ l) (16 + n) = blockAt l n := by
  apply ext_block
  intro i
  have hi : b.toList.length ≤ 16 + n + i.val := by simp; omega
  rw [blockAt, blockAt, getElem_fin_tabulate, getElem_fin_tabulate, List.getD_append_right _ _ _ _ hi,
    Vector.length_toList]
  congr 1
  omega

theorem chunks_toList_append (b : Block) (l : List Byte) : chunks (b.toList ++ l) = b :: chunks l := by
  have hcount : (b.toList ++ l).length / 16 = l.length / 16 + 1 := by
    rw [List.length_append, Vector.length_toList]
    omega
  rw [chunks, hcount, List.range_succ_eq_map, List.map_cons, Nat.mul_zero, blockAt_toList_append, List.map_map, chunks]
  congr 1
  refine List.map_congr_left fun k _ => ?_
  rw [Function.comp_apply, Nat.succ_eq_one_add, Nat.mul_add, Nat.mul_one, blockAt_append_of_length]

theorem chunks_blockBytes (l : List Block) : chunks (blockBytes l) = l := by
  induction l with
  | nil => rfl
  | cons b l ih => rw [blockBytes_cons, chunks_toList_append, ih]

/-! ### The block register and the key through the port (rules R80, R110, R111, R114) -/

theorem toNat_blockIndex (i : Fin 16) : (BitVec.ofNat 8 i.val).toNat = i.val := Nat.mod_eq_of_lt (by omega)

theorem issue_bwi (i : Fin 16) (v : Byte) (s : State) :
    (issue (.bwi (BitVec.ofNat 8 i.val) v) s).1 = (s.setBlkByte i v).answer ⟨0, 0⟩ :=
  congrArg Prod.fst (issue_of_exec_respond (exec_bwi_of_eq_val (toNat_blockIndex i)))

theorem issue_kwi (i : Fin 16) (v : Byte) (s : State) :
    (issue (.kwi (BitVec.ofNat 8 i.val) v) s).1 = ((s.setKeyByte i v).withSr (clearRkv s.sr)).answer ⟨0, 0⟩ :=
  congrArg Prod.fst (issue_of_exec_respond (exec_kwi_of_eq_val (toNat_blockIndex i)))

theorem issue_brd (i : Fin 16) (s : State) :
    issue (.brd (BitVec.ofNat 8 i.val)) s = (s.answer ⟨0, s.blk[i].setWidth 32⟩, ⟨0, s.blk[i].setWidth 32⟩) :=
  issue_of_exec_respond (exec_brd_of_eq_val (toNat_blockIndex i))

/-- What every command of a list keeps, the list keeps. -/
theorem issueAll_preserves {P : State → Prop} {is : List Instr} (h : ∀ i ∈ is, ∀ u, P u → P (issue i u).1) {s : State}
    (hs : P s) : P (issueAll is s).1 := by
  induction is generalizing s with
  | nil => exact hs
  | cons i is ih =>
    obtain ⟨hi, his⟩ := List.forall_mem_cons.mp h
    exact ih his (hi s hs)

/-- Sixteen commands that each write one byte of an array leave all its bytes written. -/
theorem issueAll_blockIndices {cmd : Fin 16 → Instr} {get : State → Block} {b : Block}
    (hcmd : ∀ u i, get (issue (cmd i) u).1 = (get u).set i b[i]) (s : State) :
    get (issueAll (blockIndices.map cmd) s).1 = b := by
  have hwrites (u : State) (i j : Fin 16) : (get (issue (cmd i) u).1)[j] = if j = i then b[i] else (get u)[j] := by
    rw [hcmd]
    exact getElem_set_fin (get u) i j b[i]
  apply ext_block
  intro j
  exact (issueAll_writes (get := fun u (j : Fin 16) => (get u)[j]) hwrites blockIndices s j).trans
    (if_pos (List.mem_finRange j))

theorem blk_loadBlockCommands (b : Block) (s : State) : (issueAll (loadBlockCommands b) s).1.blk = b := by
  rw [loadBlockCommands]
  refine issueAll_blockIndices (get := State.blk) (fun u i => ?_) s
  rw [issue_bwi]
  rfl

theorem key_loadKeyCommands (k : Block) (s : State) : (issueAll (loadKeyCommands k) s).1.key = k := by
  rw [loadKeyCommands]
  refine issueAll_blockIndices (get := State.key) (fun u i => ?_) s
  rw [issue_kwi]
  rfl

/-- The 16 responses to RDBLK are the bytes of `BLK`. -/
theorem readBlockCommands_bytes (s : State) :
    (issueAll readBlockCommands s).2.map Response.byte = s.blk.toList := by
  have hbrd (u : State) (i : Fin 16) (hu : u.blk = s.blk) :
      (issue (.brd (BitVec.ofNat 8 i.val)) u).1.blk = s.blk ∧
        (issue (.brd (BitVec.ofNat 8 i.val)) u).2 = ⟨0, s.blk[i].setWidth 32⟩ := by
    rw [issue_brd, hu]
    exact ⟨hu, rfl⟩
  rw [readBlockCommands, issueAll_answers hbrd blockIndices rfl, List.map_map]
  apply List.ext_getElem
  · simp [blockIndices]
  · intro i hi hi'
    simp [blockIndices, Response.byte]

/-! ### Loading a key (rules R200, R201, R261) -/

/-- LDKEY and KEYEXP leave the expanded key, valid, and the tables as they were. -/
theorem loadKey_spec (k : Block) (s : State) :
    (loadKey k s).rk = keyExpansion k ∧ rkvFlag (loadKey k s).sr = true ∧ (loadKey k s).tbl = s.tbl := by
  have htbl : (issueAll (loadKeyCommands k) s).1.tbl = s.tbl := by
    refine issueAll_preserves (P := fun u => u.tbl = s.tbl) (List.forall_mem_map.mpr fun i _ u hu => ?_) rfl
    rw [issue_kwi]
    exact hu
  have hexec (u : State) : exec .keyexp u = done ((u.withRk (keyExpansion u.key)).withSr (setRkv u.sr)) := rfl
  have hkeyexp (u : State) :
      (issueAll [.keyexp] u).1 = ((u.withRk (keyExpansion u.key)).withSr (setRkv u.sr)).answer ⟨0, 0⟩ :=
    congrArg Prod.fst (issue_of_exec_respond (hexec u))
  rw [loadKey, issueAll_append_fst, hkeyexp, key_loadKeyCommands]
  exact ⟨rfl, rkvFlag_setRkv _, htbl⟩

theorem table?_loadKey (k : Block) (s : State) (ts : SlotNum) : (loadKey k s).table? ts = s.table? ts := by
  obtain ⟨-, -, htbl⟩ := loadKey_spec k s
  simp only [State.table?, htbl]

/-! ### Running a block command over a sequence (rules R264, R265) -/

section
variable {s u : State}

theorem sameSetup_loadBlockCommands (h : SameSetup s u) (b : Block) :
    SameSetup s (issueAll (loadBlockCommands b) u).1 := by
  refine issueAll_preserves (List.forall_mem_map.mpr fun i _ v hv => ?_) h
  rw [issue_bwi]
  exact hv

theorem sameSetup_readBlockCommands (h : SameSetup s u) : SameSetup s (issueAll readBlockCommands u).1 := by
  refine issueAll_preserves (List.forall_mem_map.mpr fun i _ v hv => ?_) h
  rw [issue_brd]
  exact hv

/-- LDBLK and a stage leave the stage's function of the block, and the setup as it was. -/
theorem Stage.issueAll_loadBlock {i : Instr} {f : Block → Block} (hi : Stage s i f) (h : SameSetup s u) (b : Block) :
    (issueAll (loadBlockCommands b ++ [i]) u).1.blk = f b ∧ SameSetup s (issueAll (loadBlockCommands b ++ [i]) u).1 := by
  have hload := sameSetup_loadBlockCommands h b
  have hissue : (issueAll [i] (issueAll (loadBlockCommands b) u).1).1 =
      ((issueAll (loadBlockCommands b) u).1.withBlk (f b)).answer ⟨0, 0⟩ := by
    have hexec := hi _ hload
    rw [blk_loadBlockCommands] at hexec
    exact congrArg Prod.fst (issue_of_exec_respond hexec)
  rw [issueAll_append_fst, hissue]
  exact ⟨rfl, hload⟩

theorem runBlocks_cons_snd (i : Instr) (b : Block) (l : List Block) (v : State) :
    (runBlocks i (b :: l) v).2 =
      (issueAll readBlockCommands (issueAll (loadBlockCommands b ++ [i]) v).1).2.map Response.byte ++
        (runBlocks i l (issueAll readBlockCommands (issueAll (loadBlockCommands b ++ [i]) v).1).1).2 := rfl

/-- A stage run over a list of blocks answers the bytes of its function's blocks. -/
theorem Stage.runBlocks_snd {i : Instr} {f : Block → Block} (hi : Stage s i f) (h : SameSetup s u) (l : List Block) :
    (runBlocks i l u).2 = blockBytes (l.map f) := by
  induction l generalizing u with
  | nil => rfl
  | cons b l ih =>
    obtain ⟨hblk, hsetup⟩ := hi.issueAll_loadBlock h b
    rw [runBlocks_cons_snd, readBlockCommands_bytes, hblk, ih (sameSetup_readBlockCommands hsetup), List.map_cons,
      blockBytes_cons]

end

theorem encryptData_snd {ts : Fin 8} {t : Table} {s : State} (ht : s.table? (slotOf ts) = some t) (b : List Byte)
    (key : Text) :
    (encryptData b key ts s).2 =
      blockBytes ((chunks (pad b)).map (encryptBlock · (keyExpansion (coerceKey key)) t)) := by
  obtain ⟨hrk, hrkv, -⟩ := loadKey_spec (coerceKey key) s
  have hstage := stage_encb ((table?_loadKey (coerceKey key) s (slotOf ts)).trans ht) hrkv
  rw [hrk] at hstage
  exact hstage.runBlocks_snd ⟨rfl, rfl, rfl⟩ (chunks (pad b))

theorem decryptData_eq_ite (c : List Byte) (key : Text) (ts : Fin 8) (s : State) :
    decryptData c key ts s =
      if c.length % 16 ≠ 0 then (s, .error .malformedCiphertext)
      else ((runBlocks (.decb (slotOf ts)) (chunks c) (loadKey (coerceKey key) s)).1,
        .ok (unpad (runBlocks (.decb (slotOf ts)) (chunks c) (loadKey (coerceKey key) s)).2)) := rfl

theorem decryptData_blockBytes {tu : Fin 8} {u : Table} {r : State} (hu : r.table? (slotOf tu) = some u)
    (l : List Block) (key : Text) :
    (decryptData (blockBytes l) key tu r).2 =
      .ok (unpad (blockBytes (l.map (decryptBlock · (keyExpansion (coerceKey key)) u)))) := by
  obtain ⟨hrk, hrkv, -⟩ := loadKey_spec (coerceKey key) r
  have hstage := stage_decb ((table?_loadKey (coerceKey key) r (slotOf tu)).trans hu) hrkv
  rw [hrk] at hstage
  have hwhole : ¬ (blockBytes l).length % 16 ≠ 0 := by rw [length_blockBytes]; omega
  rw [decryptData_eq_ite, if_neg hwhole, chunks_blockBytes, hstage.runBlocks_snd ⟨rfl, rfl, rfl⟩ l]

/-- Settles O57: each block of the padded sequence is encrypted and decrypted under the same round keys. -/
theorem decryptDataUndoesEncryptData : Obligations.DecryptDataUndoesEncryptData := by
  intro b key ts tu t u s r ht hu hundo
  obtain ⟨l, hbytes, hcount⟩ := exists_blockBytes_eq (length_pad b)
  have hinverse := decryptBlock_leftInverse hundo (keyExpansion (coerceKey key))
  rw [encryptData_snd ht, decryptData_blockBytes hu, ← hbytes, chunks_blockBytes, List.map_map, hinverse.comp_eq_id,
    List.map_id, hbytes, unpad_pad, length_blockBytes, List.length_map, hcount]
  exact ⟨rfl, rfl⟩

end Sys2Proof.Machine

/-! PROOFS. The statistics of the host (rules R80, R272): what STATS answers. -/
namespace Sys2Proof.Machine

/-- The commands of STATS that compute a metric, each with the metric (rule R80). -/
def metricCommands (ts : SlotNum) : List (Instr × (Table → Nat)) :=
  [(.nl ts, nonLinearity), (.sac ts, sacSum), (.lap ts, lapMax), (.dap ts, dapMax), (.du ts, diffUniformity),
    (.ad ts, algebraicDegree), (.bic ts, bitIndependence), (.fixp ts, fixedPoints)]

theorem statsCommands_eq_flatMap (ts : SlotNum) :
    statsCommands ts = (metricCommands ts).flatMap fun p => [p.1, .rdq] := rfl

theorem exec_of_mem_metricCommands {ts : SlotNum} {p : Instr × (Table → Nat)} (hp : p ∈ metricCommands ts) (s : State) :
    exec p.1 s = metric p.2 (encode p.1) ts s := by
  have hall : ∀ p ∈ metricCommands ts, exec p.1 s = metric p.2 (encode p.1) ts s := by
    simp only [metricCommands, List.forall_mem_cons]
    exact ⟨rfl, rfl, rfl, rfl, rfl, rfl, rfl, rfl, List.forall_mem_nil _⟩
  exact hall p hp

/-- The response that carries the integer of a metric, as `q` holds it. -/
def qResponse (n : Nat) : Response := ⟨0, (BitVec.ofNat 16 n).setWidth 32⟩

/-- `q` is 16 bits and the response 32, so no metric is cut (rule R24). -/
theorem toNat_data_qResponse {n : Nat} (h : n ≤ 32768) : (qResponse n).data.toNat = n := by
  simp only [qResponse, BitVec.toNat_setWidth, BitVec.toNat_ofNat]
  omega

section
variable {s : State} {ts : SlotNum} {t : Table}

/-- A metric command leaves its integer in `q` and answers it (rules R220, R249). -/
theorem issue_metric {i : Instr} {f : Table → Nat} (hexec : exec i s = metric f (encode i) ts s)
    (ht : s.table? ts = some t) :
    issue i s = ((s.withQ (BitVec.ofNat 16 (f t))).answer (qResponse (f t)), qResponse (f t)) := by
  have hmetric : exec i s = respondQ s (f t) := by simp only [hexec, metric, ht]
  exact issue_of_exec_respond hmetric

theorem issue_rdq (u : State) : issue .rdq u = (u.answer ⟨0, u.q.setWidth 32⟩, ⟨0, u.q.setWidth 32⟩) :=
  issue_of_exec_respond (s := u) (t := u) (i := .rdq) rfl

/-- Every metric of a list is answered twice, by its command and by the RDQ after it. -/
theorem issueAll_metrics_snd {l : List (Instr × (Table → Nat))}
    (hl : ∀ p ∈ l, ∀ u, exec p.1 u = metric p.2 (encode p.1) ts u) (ht : s.table? ts = some t) :
    (issueAll (l.flatMap fun p => [p.1, .rdq]) s).2 = l.flatMap fun p => [qResponse (p.2 t), qResponse (p.2 t)] := by
  induction l generalizing s with
  | nil => rfl
  | cons p l ih =>
    obtain ⟨hp, hrest⟩ := List.forall_mem_cons.mp hl
    rw [List.flatMap_cons, List.cons_append, List.singleton_append, issueAll_cons, issue_metric (hp s) ht,
      issueAll_cons, issue_rdq, ih hrest]
    · rfl
    · exact ht

theorem statsCommands_answers (ht : s.table? ts = some t) :
    (issueAll (statsCommands ts) s).2 =
      (metricCommands ts).flatMap fun p => [qResponse (p.2 t), qResponse (p.2 t)] := by
  rw [statsCommands_eq_flatMap]
  exact issueAll_metrics_snd (fun p hp u => exec_of_mem_metricCommands hp u) ht

end

theorem computeStatistics_snd (ts : Fin 8) (s : State) :
    (computeStatistics ts s).2 =
      statisticsOf fun k => ((issueAll (statsCommands (slotOf ts)) s).2.getD (2 * k + 1) ⟨0, 0⟩).data.toNat := rfl

/-- Settles O60: every second response is an RDQ, and the range of each metric keeps it whole. -/
theorem statisticsDivideTheMetrics : Obligations.StatisticsDivideTheMetrics := by
  intro ts t s ht
  have hnl := toNat_data_qResponse ((nonLinearity_le t).trans (by decide))
  have hsac := toNat_data_qResponse ((sacSum_le t).trans (by decide))
  have hlap := toNat_data_qResponse ((lapMax_le t).trans (by decide))
  have hdap := toNat_data_qResponse ((dapMax_le t).trans (by decide))
  have hdu : (qResponse (diffUniformity t)).data.toNat = diffUniformity t := hdap
  have had := toNat_data_qResponse ((algebraicDegree_le t).trans (by decide))
  have hbic := toNat_data_qResponse ((bitIndependence_le t).trans (by decide))
  have hfixp := toNat_data_qResponse ((fixedPoints_le t).trans (by decide))
  rw [computeStatistics_snd, statsCommands_answers ht]
  simp only [statisticsOf, metricCommands, List.flatMap_cons, List.flatMap_nil, List.cons_append, List.nil_append,
    List.getD_cons_succ, List.getD_cons_zero, Nat.reduceMul, Nat.reduceAdd, hnl, hsac, hlap, hdap, hdu, had, hbic, hfixp]

end Sys2Proof.Machine

/-! PROOFS. Exceptions (rules R301 to R311, R343): every run from reset is safe, which fault a command raises, and that a
fault changes only the record. -/
namespace Sys2Proof.Machine

open Statements

/-! ### Runs from a state that meets the invariants (rules R311, R343) -/

/-- No step stops, and each keeps the invariants. -/
theorem exists_step_inv {s : State} (hs : Safety.Inv s) : ∃ t, step s = .next t ∧ Safety.Inv t := by
  have ⟨t, ht⟩ : ∃ t, step s = .next t := by
    cases hq : s.cmds with
    | nil => exact ⟨s, serve_nil hq⟩
    | cons c rest =>
      obtain ⟨t, _, ht, -⟩ := step_answers hq
      exact ⟨t, ht⟩
  exact ⟨t, ht, stepKeepsEveryInvariant s t hs ht⟩

theorem safeRun_of_inv {s : State} (hs : Safety.Inv s) : Safety.SafeRun s := by
  intro n
  induction n generalizing s with
  | zero => exact ⟨s, rfl, hs⟩
  | succ n ih =>
    obtain ⟨u, hstep, hu⟩ := exists_step_inv hs
    rw [run_succ_of_step Sys2Proof.core hstep]
    exact ih hu

/-- Settles O11: reset meets the invariants whatever words wait, for none of them speaks of the queue. -/
theorem everyRunFromResetIsSafe : Obligations.EveryRunFromResetIsSafe := fun ws =>
  have hinv : Safety.Inv (State.reset.withCmds ws) := resetMeetsTheInvariants
  safeRun_of_inv hinv

/-! ### Operand checks that pass (rules R74, R78) -/

theorem exists_table?_of_slotExists {ts : SlotNum} (h : slotExists ts = true) (s : State) :
    ∃ t, s.table? ts = some t :=
  Option.isSome_iff_exists.mp ((isSome_table? s ts).trans h)

theorem exists_destSlot_of_slotWritable {td : SlotNum} (h : slotWritable td = true) : ∃ d, destSlot td = .ok d :=
  ⟨⟨td.toNat, of_decide_eq_true h⟩, destSlot_eq_ok.mpr rfl⟩

theorem exists_checkRange_of_decide {w n : Nat} {v : BitVec w} (h : decide (v.toNat < n) = true) :
    ∃ i, checkRange n v = some i :=
  ⟨⟨v.toNat, of_decide_eq_true h⟩, checkRange_eq_some.mpr rfl⟩

theorem exists_slots_of_slotWritable {td ts : SlotNum} (hd : slotWritable td = true)
    (hr : (slotExists td && slotExists ts) = true) (s : State) :
    ∃ d t, s.slots td ts = .ok (d, t) ∧ s.table? ts = some t := by
  obtain ⟨d, hd⟩ := exists_destSlot_of_slotWritable hd
  obtain ⟨t, ht⟩ := exists_table?_of_slotExists (Bool.and_eq_true_iff.mp hr).2 s
  exact ⟨d, t, State.slots_eq_ok.mpr ⟨hd, ht⟩, ht⟩

/-! ### The fault a command raises (rules R303, R304, R306 to R308) -/

theorem faultOf_of_inRange_eq_false {i : Instr} (h : i.inRange = false) (s : State) : faultOf i s = some 2 := by
  simp [faultOf, h]

theorem faultOf_of_destWritable_eq_false {i : Instr} (hr : i.inRange = true) (h : i.destWritable = false) (s : State) :
    faultOf i s = some 3 := by
  simp [faultOf, hr, h]

/-- Each check of rule R78 that fails raises its own fault, the checks of the word before those of the state. -/
theorem faultsWith_of_faultOf_eq_some {i : Instr} {s : State} {k : Byte} (h : faultOf i s = some k) :
    FaultsWith i s k := by
  cases hr : i.inRange with
  | false =>
    obtain rfl := Option.some.inj ((faultOf_of_inRange_eq_false hr s).symm.trans h)
    exact faultsWith_operandRange hr
  | true =>
  cases hd : i.destWritable with
  | false =>
    obtain rfl := Option.some.inj ((faultOf_of_destWritable_eq_false hr hd s).symm.trans h)
    exact faultsWith_readOnlyTable hr hd
  | true =>
  cases i with
  | addrk rnd =>
    obtain ⟨hk, rfl⟩ : rkvFlag s.sr = false ∧ 5 = k := by simpa [faultOf, hr, hd] using h
    exact exec_addrk_of_rkvFlag_eq_false (r := ⟨rnd.toNat, of_decide_eq_true hr⟩) rfl hk
  | encb ts =>
    obtain ⟨hk, rfl⟩ : rkvFlag s.sr = false ∧ 5 = k := by simpa [faultOf, hr, hd] using h
    obtain ⟨t, ht⟩ := exists_table?_of_slotExists hr s
    exact exec_encb_of_rkvFlag_eq_false ht hk
  | decb ts =>
    obtain ⟨hk, rfl⟩ : rkvFlag s.sr = false ∧ 5 = k := by simpa [faultOf, hr, hd] using h
    obtain ⟨t, ht⟩ := exists_table?_of_slotExists hr s
    exact exec_decb_of_rkvFlag_eq_false ht hk
  | sbinv td ts =>
    obtain ⟨t, ht⟩ := exists_table?_of_slotExists (Bool.and_eq_true_iff.mp hr).2 s
    obtain ⟨hp, rfl⟩ : isBijection t = false ∧ 4 = k := by simpa [faultOf, hr, hd, ht] using h
    exact exec_sbinv_of_not_permutation (d := ⟨td.toNat, of_decide_eq_true hd⟩) rfl ht (by simp [← isBijection_iff, hp])
  | _ => simp [faultOf, hr, hd] at h

/-! ### A command that raises no fault (rules R12, R25) -/

/-- The outcome is a next state that has answered with status 0 and kept the fault record of `s`. -/
def KeepsRecord (s : State) (o : Result) : Prop :=
  ∃ t v, o = .next t ∧ t.responses = s.responses ++ [⟨0, v⟩] ∧ t.ec = s.ec ∧ t.ew = s.ew

@[simp] theorem keepsRecord_respond {s u : State} {v : Word} :
    KeepsRecord s (respond u v) ↔ u.responses = s.responses ∧ u.ec = s.ec ∧ u.ew = s.ew := by
  constructor
  · rintro ⟨t, w, ho, hr, hrecord⟩
    obtain rfl := respond_eq_next.mp ho
    exact ⟨List.append_inj_left' hr rfl, hrecord⟩
  · rintro ⟨hr, hrecord⟩
    exact ⟨_, v, rfl, by simp [hr], hrecord⟩

@[simp] theorem keepsRecord_done {s u : State} :
    KeepsRecord s (done u) ↔ u.responses = s.responses ∧ u.ec = s.ec ∧ u.ew = s.ew := keepsRecord_respond

theorem keepsRecord_metric {s : State} {ts : SlotNum} {t : Table} (ht : s.table? ts = some t) (f : Table → Nat)
    (c : Word) : KeepsRecord s (metric f c ts s) := by
  simp [metric, respondQ, ht]

theorem wellFormed_of_faultOf_eq_none {i : Instr} {s : State} (h : faultOf i s = none) :
    i.inRange = true ∧ i.destWritable = true := by
  cases hr : i.inRange with
  | false => simp [faultOf_of_inRange_eq_false hr] at h
  | true =>
  cases hd : i.destWritable with
  | false => simp [faultOf_of_destWritable_eq_false hr hd] at h
  | true => exact ⟨rfl, rfl⟩

/-- Rule R25: no command but CLRF touches the fault record unless it faults. The commands are grouped by the checks they
make on the way. -/
theorem exec_keepsRecord {i : Instr} {s : State} (h : faultOf i s = none) (hi : i ≠ .clrf) :
    KeepsRecord s (exec i s) := by
  obtain ⟨hr, hd⟩ := wellFormed_of_faultOf_eq_none h
  cases i with
  | clrf => exact absurd rfl hi
  | nop | ldi | mov | cwi => simp [exec, execNop, execLdi, execMov, execCwi]
  | rdx | rdq | rdsr | rdec | rdew | crd | wrd =>
    simp [exec, execRdx, execRdq, execRdsr, execRdec, execRdew, execCrd, execWrd]
  | gfmul | gfinv | xor => simp [exec, execGfmul, execGfinv, execXor]
  | shrow | ishrow | mixc | imixc | keyexp =>
    simp [exec, execShrow, execIshrow, execMixc, execImixc, execKeyexp]
  | fwht | wmax => simp [exec, execFwht, execWmax, respondQ]
  | bwi | brd | bst | bld | kwi | krd | mwi | mrd | mpre =>
    obtain ⟨k, hk⟩ := exists_checkRange_of_decide hr
    simp [exec, execBwi, execBrd, execBst, execBld, execKwi, execKrd, execMwi, execMrd, execMpre, hk]
  | rkrd =>
    obtain ⟨hrnd, hidx⟩ := Bool.and_eq_true_iff.mp hr
    obtain ⟨k, hk⟩ := exists_checkRange_of_decide hrnd
    obtain ⟨j, hj⟩ := exists_checkRange_of_decide hidx
    simp [exec, execRkrd, hk, hj]
  | trd | tld | sbchk | subb | wload =>
    obtain ⟨t, ht⟩ := exists_table?_of_slotExists hr s
    simp [exec, execTrd, execTld, execSbchk, execSubb, execWload, ht]
  | nl | sac | lap | dap | du | ad | bic | fixp =>
    obtain ⟨t, ht⟩ := exists_table?_of_slotExists hr s
    exact keepsRecord_metric ht _ _
  | twi | tst | sbgen =>
    obtain ⟨d, hdest⟩ := exists_destSlot_of_slotWritable hd
    simp [exec, execTwi, execTst, execSbgen, hdest]
  | tcpy | sbinvl =>
    obtain ⟨d, t, hslots, -⟩ := exists_slots_of_slotWritable hd hr s
    simp [exec, execTcpy, execSbinvl, hslots]
  | sbinv =>
    obtain ⟨d, t, hslots, ht⟩ := exists_slots_of_slotWritable hd hr s
    have hp : isBijection t = true := by simpa [faultOf, hr, hd, ht] using h
    simp [exec, execSbinv, hslots, hp]
  | addrk =>
    obtain ⟨k, hk⟩ := exists_checkRange_of_decide hr
    have hkey : rkvFlag s.sr = true := by simpa [faultOf, hr, hd] using h
    simp [exec, execAddrk, hk, hkey]
  | encb | decb =>
    obtain ⟨t, ht⟩ := exists_table?_of_slotExists hr s
    have hkey : rkvFlag s.sr = true := by simpa [faultOf, hr, hd] using h
    simp [exec, execEncb, execDecb, ht, hkey]

/-- A command that raises no fault answers with status 0 (rules R12, R109). -/
theorem exec_of_faultOf_eq_none {i : Instr} {s : State} (h : faultOf i s = none) :
    ∃ t v, exec i s = .next t ∧ t.responses = s.responses ++ [⟨0, v⟩] ∧ (i ≠ .clrf → t.ec = s.ec ∧ t.ew = s.ew) := by
  by_cases hi : i = .clrf
  · subst hi
    exact ⟨_, 0, rfl, rfl, fun hne => absurd rfl hne⟩
  · obtain ⟨t, v, hexec, hresp, hrecord⟩ := exec_keepsRecord h hi
    exact ⟨t, v, hexec, hresp, fun _ => hrecord⟩

/-- Settles O16: the checks of `faultOf`, in its order, are those the meanings make. -/
theorem commandFaultsExactlyAsTheRulesSay : Obligations.CommandFaultsExactlyAsTheRulesSay := by
  intro i s
  split
  case h_1 k h => exact faultsWith_of_faultOf_eq_some h
  case h_2 h => exact exec_of_faultOf_eq_none h

/-! ### What a non-zero status says (rules R305, R320) -/

/-- Settles O17: an undecodable word and a faulting command both leave the record and the response only, and no other
command answers with a status that is not 0. -/
theorem faultChangesOnlyTheRecord : Obligations.FaultChangesOnlyTheRecord := by
  intro s t c rest r hq hstep hresp hr
  cases hc : decode c with
  | error e =>
    obtain rfl := Host.Outcome.next.inj ((step_of_decode_error hq hc).symm.trans hstep)
    obtain rfl : (⟨FaultCode.illegalCommand.code, 0⟩ : Response) = r := by simpa using hresp
    rfl
  | ok i =>
    have hexec := (step_of_decode_ok hq hc).symm.trans hstep
    cases hf : faultOf i (s.withCmds rest) with
    | some k =>
      obtain rfl := Host.Outcome.next.inj ((faultsWith_of_faultOf_eq_some hf).symm.trans hexec)
      obtain rfl : (⟨k, 0⟩ : Response) = r := by simpa using hresp
      rw [encodeDecodeRoundTrip c i hc]
      rfl
    | none =>
      obtain ⟨u, v, hu, hanswer, -⟩ := exec_of_faultOf_eq_none hf
      obtain rfl := Host.Outcome.next.inj (hu.symm.trans hexec)
      obtain rfl : (⟨0, v⟩ : Response) = r := by simpa [hanswer] using hresp
      exact absurd rfl hr

end Sys2Proof.Machine

/-! PROOFS. Reset and hazards (70_reset_and_hazards.md, rules R338, R341, R343): each step takes one word and answers it. -/
namespace Sys2Proof.Machine

/-- Settles O13: the port takes the word off the queue before `deliver` runs, and `deliver` answers once, whether the word
decodes to a command (`exec_answers`) or not (`answers_raise`). -/
theorem everyWordGetsExactlyOneResponse : Obligations.EveryWordGetsExactlyOneResponse := fun _ _ _ hs =>
  step_answers hs

end Sys2Proof.Machine
